-- ==== Sys2Proof/Word.lean ====
section
/-! DEFINITION. The words of the N412 and the ranges its numberings run over (00_scope.md, Conventions). -/

namespace Sys2Proof

/-- Eight bits: a sign channel, a byte of the sign link, half a word. -/
abbrev Byte := BitVec 8

/-- "A word is 16 bits" (00_scope.md, Words, addresses and pages). -/
abbrev Word := BitVec 16

/-- "Addresses on the memory bus are word addresses of 20 bits" (00_scope.md). -/
abbrev Addr := BitVec 20

/-- One bit for each of the 32 signal groups, bit `g` for group `g`. -/
abbrev Mask := BitVec 32

/-- "Signal groups are numbered 0 to 31" (00_scope.md, Numbering). -/
abbrev GroupNo := Fin 32

/-- "detectors 0 to 47" (00_scope.md, Numbering). -/
abbrev DetectorNo := Fin 48

/-- "sign records 0 to 15" (00_scope.md, Numbering). -/
abbrev SignNo := Fin 16

/-- "2-bit privilege value": 0 is the most privileged, 3 the least (00_scope.md, Terms). -/
abbrev Level := BitVec 2

end Sys2Proof
end

