-- ==== Sys2Proof/Syntax.lean ====
section
/-! DEFINITION. The commands of the block: one constructor of `Instr` per row of spec/opcode_table.json, with the operands the row's rule
names. A row that names an access carries the access; a row that names a sample carries what the inputs read at that sample. -/

namespace Sys2Proof

/-- The two resets of R82: the power-on reset and the external reset line. -/
inductive ResetKind
  | powerOn
  | external
  deriving DecidableEq, Repr

/-- The two byte enables of an access (R69, R81). -/
structure ByteEnables where
  low : Bool
  high : Bool
  deriving DecidableEq, Repr

/-- What a processor write carries beside its address: data, byte enables and access level (R69). -/
structure BusWrite where
  data : Word
  enables : ByteEnables
  level : Level
  deriving DecidableEq, Repr

/-- A processor-side access as the bus tap samples it at the strobe (R69). `memory` is the word the cabinet memory returns if the
access is forwarded as a read: memory lies outside the device. -/
structure Access where
  readStrobe : Bool
  writeStrobe : Bool
  addr : Addr
  enables : ByteEnables
  level : Level
  data : Word
  memory : Word
  deriving DecidableEq, Repr

/-- A processor access that is in progress as a reset begins (R82). `acted` says that the device had acted on it before that moment: it had
handed a served access to its owning block, or begun the forwarded cycle of a MIRRORED write. -/
structure AccessInProgress where
  access : Access
  acted : Bool
  deriving DecidableEq, Repr

/-- The assertion of a reset: which one, and the access it finds in progress, if any (R82). -/
structure ResetAssertion where
  kind : ResetKind
  inProgress : Option AccessInProgress
  deriving DecidableEq, Repr

/-- A write to the control word, and how many of the newest submissions of the same moment are taken after it (R152, R153): 0 for a write
taken after them all. -/
structure ControlWrite where
  write : BusWrite
  later : Nat
  deriving DecidableEq, Repr

/-- One reading of the 96 sense inputs, one bit per group for each of the STOP, CLEAR and GO senses (R100). -/
structure SenseSample where
  stop : Mask
  clear : Mask
  go : Mask
  deriving DecidableEq, Repr

/-- The three lamp lines of a group (R6). -/
inductive Line
  | stop
  | clear
  | go
  deriving DecidableEq, Repr

/-- The two readers of the event queue (R149). -/
inductive Reader
  | a
  | b
  deriving DecidableEq, Repr

/-- A read of a reader's last port word, and how many of the newest submissions of the same moment are taken after it (R151): 0 for a read
taken after them all. -/
structure TakingRead where
  reader : Reader
  later : Nat
  deriving DecidableEq, Repr

/-- The byte enables of a read, and how many of the newest submissions of the same moment are taken after it (R148): 0 for a read taken after
them all. -/
structure PlacedEnables where
  enables : ByteEnables
  later : Nat
  deriving DecidableEq, Repr

/-- A byte as the sign link receives it: eight data bits, the parity bit and the level of the stop bit, `true` for mark (R135). -/
structure ReceivedByte where
  data : Byte
  parity : Bool
  stop : Bool
  deriving DecidableEq, Repr

/-- What the sign link received in a reply window: when the first byte's start bit began and when the sixth byte's stop bit ended, in
microseconds from the window's opening, and the bytes in order (R139). -/
structure Reply where
  firstStart : Nat
  sixthEnd : Nat
  bytes : List ReceivedByte
  deriving DecidableEq, Repr

/-- The commands, in the order of spec/opcode_table.json. -/
inductive Instr
  | resetAsserted (kind : ResetAssertion)
  | powerLoss
  | resetEnd (kind : ResetKind) (straps : BitVec 4) (switchClosed : Bool)
  | decisecondEvent
  | groupSequencerStep
  | evaluation
  | prepareExpiry (g : GroupNo)
  | goTimerReachesMg (g : GroupNo)
  | clearingExpiry (g : GroupNo)
  | modeControllerStep (h0 h1 switchClosed : Bool)
  | startFlashExpiry
  | allStopExpiry
  | flashEntryTimerExpiry
  | livenessExpiry
  | refusalLimitReached (word : Fin 9) (w : BusWrite)
  | hold (line : Fin 2) (asserted : Bool)
  | commissioningSwitchChange (closed : Bool)
  | lampSample (x : SenseSample)
  | conflict (j i : GroupNo) (x : SenseSample)
  | uncommandedGo (g : GroupNo) (x : SenseSample)
  | redOut (g : GroupNo) (x : SenseSample)
  | lampFail (g : GroupNo) (line : Line) (x : SenseSample)
  | detectorSample (inputs : BitVec 48)
  | activation (d : DetectorNo) (inputs : BitVec 48)
  | deactivation (d : DetectorNo) (inputs : BitVec 48)
  | detCount (d : DetectorNo) (inputs : BitVec 48)
  | detectorStep
  | stuckOn (d : DetectorNo)
  | stuckOff (d : DetectorNo)
  | frameEvent
  | goodReply (r : Reply)
  | replyMiss
  | signSilent
  | timeMark
  | passedAccess (a : Access)
  | goMaskWrite (word : Fin 2) (w : BusWrite)
  | setAlias (word : Fin 2) (w : BusWrite)
  | clearAlias (word : Fin 2) (w : BusWrite)
  | toggleAlias (word : Fin 2) (w : BusWrite)
  | modeWordFlash (enables : ByteEnables) (level : Level)
  | modeWordNormal (enables : ByteEnables) (level : Level)
  | modeWordDark (enables : ByteEnables) (level : Level)
  | modeWordValueRefused (w : BusWrite)
  | requestBaseRead (word : Fin 9) (enables : ByteEnables) (level : Level) (memory : Word)
  | take (reader : TakingRead) (enables : ByteEnables) (level : Level) (memory : Word)
  | lowWordRead (page : Fin 64) (offset : Fin 256) (enables : PlacedEnables) (level : Level) (memory : Word)
  | enableReaderB (w : ControlWrite)
  | disableReaderB (w : ControlWrite)
  | timeMarkWordWrite (w : BusWrite)
  | detectorSelectWrite (w : BusWrite)
  | detectorKindWrite (w : BusWrite)
  | detectorSettingsWrite (setting : Fin 5) (w : BusWrite)
  | callClearAlias (word : Fin 2) (w : BusWrite)
  | signImageWrite (word : Fin 64) (w : BusWrite)
  | stagingWrite (offset : Fin 1024) (w : BusWrite)
  | lockWrite (w : BusWrite)
  | lockFreeze (w : BusWrite)
  | commitRequest (w : BusWrite)
  | commitCompletion
  | serviceWrite (w : BusWrite)
  | servedWrite (page : Fin 64) (offset : Fin 256) (w : BusWrite)
  | channelByteStart
  | replyWindowOpen
  deriving DecidableEq, Repr

end Sys2Proof
end

