-- ==== Sys2Proof/WellFormed.lean ====
section
/-! DEFINITION. The checks an operand can fail while its type admits it. A meaning answers for ill-formed commands as well; the checks say
which commands are events the manual describes under the row's name. -/

namespace Sys2Proof

/-- "a write with at least one byte enabled" (R86, R168). -/
def ByteEnables.any (e : ByteEnables) : Bool := e.low || e.high

/-- The pages of the guarded area with served words: 1 to 6 and 8 to 12 (R71). -/
def servedPage (page : Nat) : Bool := (1 ≤ page && page ≤ 6) || (8 ≤ page && page ≤ 12)

/-- CONFLICT names "each pair of groups j and i with j less than i" (R105). -/
def wfPair (j i : GroupNo) : Bool := j < i

/-- An access has at least one strobe asserted (R69). -/
def wfAccess (a : Access) : Bool := a.readStrobe || a.writeStrobe

/-- A reply that can be good has six bytes at least, the sixth ending after the first begins (R139). -/
def wfReply (r : Reply) : Bool := 6 ≤ r.bytes.length && r.firstStart < r.sixthEnd

/-- The well-formed commands. -/
def Instr.wellFormed : Instr → Bool
  | .conflict j i _ => wfPair j i
  | .passedAccess a => wfAccess a
  | .goodReply r => wfReply r
  | .refusalLimitReached _ w => w.enables.any
  | .lowWordRead page _ _ _ _ => servedPage page
  | .servedWrite page _ _ => servedPage page
  | .resetAsserted kind => kind.inProgress.all fun p => wfAccess p.access
  | .powerLoss => true
  | .resetEnd _ _ _ => true
  | .decisecondEvent => true
  | .groupSequencerStep => true
  | .evaluation => true
  | .prepareExpiry _ => true
  | .goTimerReachesMg _ => true
  | .clearingExpiry _ => true
  | .modeControllerStep _ _ _ => true
  | .startFlashExpiry => true
  | .allStopExpiry => true
  | .flashEntryTimerExpiry => true
  | .livenessExpiry => true
  | .hold _ _ => true
  | .commissioningSwitchChange _ => true
  | .lampSample _ => true
  | .uncommandedGo _ _ => true
  | .redOut _ _ => true
  | .lampFail _ _ _ => true
  | .detectorSample _ => true
  | .activation _ _ => true
  | .deactivation _ _ => true
  | .detCount _ _ => true
  | .detectorStep => true
  | .stuckOn _ => true
  | .stuckOff _ => true
  | .frameEvent => true
  | .replyMiss => true
  | .signSilent => true
  | .timeMark => true
  | .goMaskWrite _ _ => true
  | .setAlias _ _ => true
  | .clearAlias _ _ => true
  | .toggleAlias _ _ => true
  | .modeWordFlash _ _ => true
  | .modeWordNormal _ _ => true
  | .modeWordDark _ _ => true
  | .modeWordValueRefused _ => true
  | .requestBaseRead _ _ _ _ => true
  | .take _ _ _ _ => true
  | .enableReaderB _ => true
  | .disableReaderB _ => true
  | .timeMarkWordWrite _ => true
  | .detectorSelectWrite _ => true
  | .detectorKindWrite _ => true
  | .detectorSettingsWrite _ _ => true
  | .callClearAlias _ _ => true
  | .signImageWrite _ _ => true
  | .stagingWrite _ _ => true
  | .lockWrite _ => true
  | .lockFreeze _ => true
  | .commitRequest _ => true
  | .commitCompletion => true
  | .serviceWrite _ => true
  | .channelByteStart => true
  | .replyWindowOpen => true

end Sys2Proof
end

