-- ==== Sys2Proof/Decode.lean ====
section
/-! DEFINITION. No row of spec/opcode_table.json gives bits: the block takes commands and decodes no instruction word. `decodeTableWord` is
total and answers none on every word. -/

namespace Sys2Proof

/-- The command a word spells by the table's bits; the table gives no row any bits, so there is none. -/
def decodeTableWord (_nbits _w : Nat) : Option Instr := none

end Sys2Proof
end

