-- ==== Sys2Proof/Config.lean ====
section
/-! DEFINITION. The constants every N412 has, each with the rule that states it, and the one free value of the model: the order the manual
leaves open among the records that different blocks submit at one moment. -/

namespace Sys2Proof.Config

/-- "at most 128 records" (R149). -/
def queueDepth : Nat := 128

/-- E, the request age, the go-timer and BLOCKED: 65,535 (R10, R11, R12, R26). -/
def wordLimit : Nat := 65535

/-- "saturating at 16,777,215" (R54, R65, R172, R175). -/
def counterLimit : Nat := 16777215

/-- "saturating at 1023" (R98). -/
def refusalCountLimit : Nat := 1023

/-- "0–255": runs, the missed count and miss runs saturate at 255 (R103, R141, R154). -/
def byteLimit : Nat := 255

/-- "saturating at 153,001" (R119, R120). -/
def detectorTimerLimit : Nat := 153001

/-- "An N412 that is UNCONFIGURED uses 100 ds" (R48). -/
def unconfiguredStartFlash : Nat := 100

/-- "a multiple of 600" (R156) and "the limit × 600 + 1" (R119, R120). -/
def minute : Nat := 600

/-- A sense window and a commanded-GO window hold six samples (R101, R102). -/
def senseWindow : Nat := 6

/-- "SILENT … at the third consecutive poll it fails to answer" (R141). -/
def silentMisses : Nat := 3

/-- The first reply byte "begins within 3 ms of the window's opening" (R139), in microseconds. -/
def replyStartLimit : Nat := 3000

/-- The reply window "closes 6 ms later" (R139), in microseconds. -/
def replyWindow : Nat := 6000

/-- "The code FFh in an 8-bit subject field means that the subject is absent" (00_scope.md, Quantities and limits). -/
def absent : BitVec 8 := 0xFF

/-- The default level map of an UNCONFIGURED device (R76): REQUEST 1, SIGN_IMAGE 2, DETECTORS 1, PORT_A 3, PORT_B 3,
SERVICE_COUNTER 0, VIEWS 3, two bits each from bit 0 up (11.5). -/
def defaultLevelMap : BitVec 14 := 0b11_00_11_11_01_10_01

/-- FREE VALUE (notes/assumptions/2.md): the place a record takes among those of other blocks at the same moment, as the number of their
submissions it is taken before; "either order" (R148). It has no body, so nothing can be proved of it. Its argument is the number of the
choice. -/
opaque recordOrder : Nat → Nat

end Sys2Proof.Config
end

