-- ==== Sys2Proof/Machine/State.lean ====
section
/-! DEFINITION. The state of the N412, block by block as 00_scope.md's overview lists them, as plain data; the reasons a step can stop; and
the machine right after reset. -/

namespace Sys2Proof.Machine

open Sys2Proof

/-! ### Named values -/

/-- A configured group is in one of six states (chapter 1.3; codes in 11.4). -/
inductive GroupState
  | unlit
  | flashing
  | stop
  | prepare
  | go
  | clearing
  deriving DecidableEq, Repr

/-- The seven modes (R45; codes in 11.5). -/
inductive Mode
  | startFlash
  | allStop
  | normal
  | toFlash
  | flash
  | dark
  | faultFlash
  deriving DecidableEq, Repr

/-- Why the present mode was entered (R45; codes in 11.5). -/
inductive Cause
  | reset
  | software
  | liveness
  | refusals
  | switch
  | fault
  deriving DecidableEq, Repr

/-- The causes of a declaration (R64; codes 1 to 3 in 11.5). -/
inductive FaultCause
  | conflict
  | uncommandedGo
  | redOut
  deriving DecidableEq, Repr

/-- The kinds of stored records (R147; codes 1 to 20 in 11.8). EMPTY is never stored and has no constructor. -/
inductive EventKind
  | timeMark
  | mode
  | groupState
  | stopHeld
  | lateCancel
  | hold
  | fault
  | lampFail
  | detOccupied
  | detFree
  | detPulse
  | detCount
  | detFault
  | detRecover
  | signLive
  | signSilent
  | signStatus
  | refused
  | mirrorMismatch
  | commit
  deriving DecidableEq, Repr

/-- The blocks that submit records (R147's table). -/
inductive Block
  | groupSequencer
  | modeController
  | lampMonitor
  | detectorUnit
  | signLink
  | busTap
  | tableStore
  | eventQueue
  deriving DecidableEq, Repr

/-- The refusal reasons (R77; codes 1 to 10 in 11.8). -/
inductive Reason
  | level
  | readOnly
  | value
  | mode
  | switchOpen
  | unconfigured
  | locked
  | busy
  | frozen
  | overflow
  deriving DecidableEq, Repr

/-- The seven sections of the tables (R160; codes 0 to 6 in 11.10). -/
inductive Section
  | conflict
  | intergreen
  | groups
  | holds
  | signs
  | timing
  | levels
  deriving DecidableEq, Repr

/-- The kinds of a detector record (R113; codes 0 to 3 in 11.7). -/
inductive DetectorKind
  | off
  | presence
  | pulse
  | count
  deriving DecidableEq, Repr

/-- The states of a detector (chapter 7.3; codes 0 to 4 in 11.7). -/
inductive DetectorState
  | disabled
  | free
  | occupied
  | faultedOn
  | faultedOff
  deriving DecidableEq, Repr

/-- The states of a sign (chapter 8, table of state held). -/
inductive SignState
  | unknown
  | live
  | silent
  deriving DecidableEq, Repr

/-! ### The safety tables (R160, layouts of 11.10) -/

/-- A group record: every bit of its three staging words that holds a field, legal or not (R3, R160, 11.10). -/
structure GroupRecord where
  kind : BitVec 4
  proving : Bool
  redundant : Bool
  aspect : Byte
  minimumGo : Word
  prepareTime : Byte
  clearingTime : Byte
  deriving DecidableEq, Repr

/-- A sign record: every bit of its three staging words that holds a field (R130, 11.10). -/
structure SignRecord where
  address : Byte
  start : Byte
  span : Byte
  bound : Byte
  safe : Byte
  whenStop : Bool
  required : Bool
  deriving DecidableEq, Repr

/-- The TIMING section: G, SF, AS, FE, L, PD and the refusal limit, one word each (R160, 11.10). -/
structure Timing where
  groupCount : Word
  startFlash : Word
  allStop : Word
  flashEntry : Word
  liveness : Word
  provingDelay : Word
  refusalLimit : Word
  deriving DecidableEq, Repr

/-- One whole set of safety tables, its seven sections (R160). Row `j` of `conflict` holds `C[j][i]` in bit `i`; `intergreen[j][i]` is
`IG[j][i]`; `holds` has the mask of H0 and the mask of H1; `levels` is the level map word of 11.5. -/
structure Tables where
  conflict : Vector Mask 32
  intergreen : Vector (Vector Byte 32) 32
  groups : Vector GroupRecord 32
  holds : Vector Mask 2
  signs : Vector SignRecord 16
  timing : Timing
  levels : BitVec 14
  deriving DecidableEq, Repr

/-- Tables with every entry 0, the staging of an UNCONFIGURED device (R162). -/
def Tables.zero : Tables where
  conflict := Vector.replicate 32 0
  intergreen := Vector.replicate 32 (Vector.replicate 32 0)
  groups := Vector.replicate 32 ⟨0, false, false, 0, 0, 0, 0⟩
  holds := Vector.replicate 2 0
  signs := Vector.replicate 16 ⟨0, 0, 0, 0, 0, false, false⟩
  timing := ⟨0, 0, 0, 0, 0, 0, 0⟩
  levels := 0

/-! ### The blocks' state -/

/-- What the group sequencer holds for one group (chapter 1.4). -/
structure Group where
  state : GroupState
  prepareTimer : Nat
  goTimer : Nat
  clearingTimer : Nat
  lateCancel : Bool
  heldStop : Bool
  elapsed : Nat
  age : Nat
  deriving DecidableEq, Repr

/-- The fixed values of an unconfigured group (R4). -/
def Group.unconfigured : Group := ⟨.unlit, 0, 0, 0, false, false, 65535, 0⟩

/-- A two-sample input filter: the filtered level, and whether the last sample differed from it (R59, R61). -/
structure Filter where
  level : Bool
  differed : Bool
  deriving DecidableEq, Repr

/-- What the mode controller holds (chapter 3). `running` tells whether the mode timer of the present mode runs (R47). -/
structure ModeControl where
  mode : Mode
  cause : Cause
  normalPending : Bool
  startFlashTimer : Nat
  allStopTimer : Nat
  flashEntryTimer : Nat
  running : Bool
  h0 : Filter
  h1 : Filter
  switch : Filter
  deriving DecidableEq, Repr

/-- The mirror of one request-page base word, with its written and mismatch flags (R84). -/
structure MirrorWord where
  value : Word
  written : Bool
  mismatch : Bool
  deriving DecidableEq, Repr

/-- What the bus tap and the request page logic hold for the request page: the three mirrors, the liveness timer and the consecutive
refusal count (R84, R54, R98). -/
structure RequestPage where
  word0 : MirrorWord
  word1 : MirrorWord
  word8 : MirrorWord
  liveness : Nat
  refusals : Nat
  deriving DecidableEq, Repr

/-- What the bus tap latches as a reset ends: the strap value S that places the guarded area and the effective level map (R70, R76). -/
structure BusTap where
  strap : BitVec 4
  levelMap : BitVec 14
  deriving DecidableEq, Repr

/-- The values of the last evaluation: the reported wait of each group and the releasable mask (R39, R40). -/
structure Arbiter where
  waits : Vector Nat 32
  releasable : Mask
  deriving DecidableEq, Repr

/-- A discrepancy run with its declared mark (R103, R104). -/
structure Run where
  count : Nat
  mark : Bool
  deriving DecidableEq, Repr

/-- What the lamp monitor holds (chapter 6, table of state held). `samples` are the last six samples, newest first (R101);
`goIntervals` the marks of the last six closed sample intervals, newest first, and `goMark` those of the interval now running (R102). -/
structure LampMonitor where
  samples : List SenseSample
  goIntervals : List Mask
  goMark : Mask
  conflictRuns : Vector (Vector Run 32) 32
  uncommandedRuns : Vector Run 32
  stopOutRuns : Vector Run 32
  clearOutRuns : Vector Nat 32
  goOutRuns : Vector Nat 32
  stopFailed : Mask
  clearFailed : Mask
  goFailed : Mask
  deriving DecidableEq, Repr

/-- One detector: its settings (R113) and its condition values (R114). -/
structure Detector where
  kind : DetectorKind
  onFilter : Byte
  offFilter : Byte
  callMask : Mask
  prescale : Word
  stuckOn : Byte
  stuckOff : Byte
  raw : Bool
  level : Bool
  run : Nat
  state : DetectorState
  occupancy : Nat
  gap : Nat
  accumulator : Nat
  total : BitVec 32
  deriving DecidableEq, Repr

/-- A detector at the end of a reset (R129). -/
def Detector.atReset : Detector :=
  ⟨.off, 0, 0, 0, 1, 0, 0, false, false, 0, .disabled, 0, 0, 0, 0⟩

/-- What the detector unit holds: the 48 detectors, the call bits and the detector select word (chapter 7, R180). -/
structure DetectorUnit where
  detectors : Vector Detector 48
  calls : Mask
  select : Word
  deriving DecidableEq, Repr

/-- The three status flags of a sign (R142). -/
structure SignStatus where
  displayFault : Bool
  doorOpen : Bool
  supplyFault : Bool
  deriving DecidableEq, Repr

/-- What the sign link holds for one sign record (chapter 8, table of state held). -/
structure Sign where
  state : SignState
  missRun : Nat
  status : SignStatus
  deriving DecidableEq, Repr

/-- What a frame fixes at its frame event (R136). -/
structure Frame where
  seq : Byte
  poll : Byte
  count : Nat
  deriving DecidableEq, Repr

/-- The poll in flight: the record, its address and the SEQ of the polling frame (R138), and whether a commit has changed the record's
address or made it unused, so that the outcome is discarded (R139, R145). -/
structure Poll where
  record : SignNo
  address : Byte
  seq : Byte
  discarded : Bool
  deriving DecidableEq, Repr

/-- What the sign link holds (chapter 8). `frame` is the frame in progress; `line` the bytes sent of the present or last frame, in order;
`windowOpen` says that a reply window is open; `firstFrame` that no frame event has been taken since the reset (R138). -/
structure SignLink where
  image : Vector Byte 128
  signs : Vector Sign 16
  sequence : Byte
  cursor : Byte
  poll : Option Poll
  frame : Option Frame
  line : List Byte
  windowOpen : Bool
  firstFrame : Bool
  deriving DecidableEq, Repr

/-- An event record (R147). -/
structure Record where
  kind : EventKind
  stamp : Word
  subject : Byte
  detail : Word
  missed : Nat
  deriving DecidableEq, Repr

/-- What the event queue holds: the held records oldest first, the taken-by counts, reader B's enable and the missed count
(chapter 9). The last five are MODEL's own: the submissions of the present moment, among which R148 leaves the order of different blocks
open, as how many of the newest held records they are (`fresh`) and those of them that were dropped (`dropped`); whether a processor access
and a detector sample have been taken at this moment (notes/assumptions/41.md); and how many free choices were taken (`choices`,
notes/assumptions/2.md). -/
structure Queue where
  held : List Record
  takenA : Nat
  takenB : Nat
  enabledB : Bool
  missed : Nat
  fresh : Nat
  dropped : List Record
  accessed : Bool
  sampled : Bool
  choices : Nat
  deriving DecidableEq, Repr

/-- The last fault record (R65); the empty record has no cause. -/
structure FaultRecord where
  cause : Option FaultCause
  first : Byte
  second : Byte
  clock : BitVec 32
  mode : Mode
  deriving DecidableEq, Repr

/-- The record "before the first fault entry of the device's life" (R65); 11.5 gives what its words read. -/
def FaultRecord.empty : FaultRecord := ⟨none, 0, 0xFF, 0, .startFlash⟩

/-- What the table store keeps without supply (chapter 10, rows "kept through resets: yes"). -/
structure NonVolatile where
  active : Tables
  valid : Bool
  lockFlags : BitVec 7
  freeze : Bool
  faultEntries : Nat
  livenessLosses : Nat
  commits : Nat
  service : Nat
  lastFault : FaultRecord
  deriving DecidableEq, Repr

/-- The non-volatile contents at the start of the device's life (chapter 10, last column). The active tables are none: nothing reads
them while the validity is clear. -/
def NonVolatile.factory : NonVolatile := ⟨Tables.zero, false, 0, false, 0, 0, 0, 0, FaultRecord.empty⟩

/-- The commit result with its particulars (R174); `code` is 1 to 10 for V01 to V10. -/
inductive CommitResult
  | none
  | refused (reason : Reason)
  | invalid (code : Nat) (sec : Section) (index : Nat)
  | unchanged
  | done
  deriving DecidableEq, Repr

/-- What the table store holds: the non-volatile contents, the staging tables, the commit state and the commit result (chapter 10). -/
structure TableStore where
  nv : NonVolatile
  staging : Tables
  busy : Bool
  result : CommitResult
  deriving DecidableEq, Repr

/-- The high-word latches of the two-word values (R179). -/
structure Latches where
  clock : Word
  releasable : Word
  faultClock : Word
  faultEntries : Word
  livenessLosses : Word
  commits : Word
  service : Word
  occupancy : Word
  gap : Word
  total : Word
  deriving DecidableEq, Repr

/-- A cycle on the memory side (00_scope.md, signal summary; R72, R85). -/
structure MemoryCycle where
  write : Bool
  addr : Addr
  enables : ByteEnables
  data : Word
  deriving DecidableEq, Repr

/-- What the last processor access drove: the data returned to the processor, if any, and the memory-side cycle, if any (R69, R72, R74). -/
structure BusPins where
  readData : Option Word
  cycle : Option MemoryCycle
  deriving DecidableEq, Repr

/-- MODEL's own (notes/assumptions/1.md): which parts of the present decisecond event are still to be taken (R1, R33, R34, R47), and what
an order, a grant or a start of this event holds back until the next one (R35, R46, R47). -/
structure EventParts where
  sequencer : Bool
  arbiter : Bool
  modeTimer : Bool
  liveness : Bool
  hold0 : Bool
  hold1 : Bool
  switch : Bool
  lamps : Bool
  detectors : Bool
  signs : Bool
  mark : Bool
  heldTimers : Mask
  heldElapsed : Mask
  heldAges : Mask
  heldModeTimer : Bool
  heldLiveness : Bool
  deriving DecidableEq, Repr

/-- No part to take and nothing held back. -/
def EventParts.idle : EventParts :=
  ⟨false, false, false, false, false, false, false, false, false, false, false, 0, 0, 0, false, false⟩

/-- Every part to take and nothing held back: the parts as the clock advances. -/
def EventParts.due : EventParts :=
  ⟨true, true, true, true, true, true, true, true, true, true, true, 0, 0, 0, false, false⟩

/-- The whole state. `powerOnHeld` and `externalHeld` say which resets are held (R82); `pending` is the queue of waiting commands, first in,
first out (MODEL's own). -/
structure State where
  powerOnHeld : Bool
  externalHeld : Bool
  clock : BitVec 32
  groups : Vector Group 32
  arbiter : Arbiter
  mode : ModeControl
  page : RequestPage
  tap : BusTap
  lamps : LampMonitor
  detectors : DetectorUnit
  link : SignLink
  queue : Queue
  store : TableStore
  latches : Latches
  bus : BusPins
  parts : EventParts
  pending : List Instr
  deriving DecidableEq, Repr

/-- The reasons a command stops the machine. There is none: the manual gives every command an effect in every state. -/
inductive Fault
  deriving DecidableEq, Repr

/-- The reasons a command is refused by the model. -/
inductive Refusal
  /-- Raised by `exec` alone, for a command whose meaning is not written; no arm answers with it. Safe: it stops the run. -/
  | notModelled (mnemonic : String)
  deriving DecidableEq, Repr

/-! ### The machine right after reset -/

/-- The lamp monitor at the end of a reset (R112). -/
def LampMonitor.atReset : LampMonitor where
  samples := []
  goIntervals := []
  goMark := 0
  conflictRuns := Vector.replicate 32 (Vector.replicate 32 ⟨0, false⟩)
  uncommandedRuns := Vector.replicate 32 ⟨0, false⟩
  stopOutRuns := Vector.replicate 32 ⟨0, false⟩
  clearOutRuns := Vector.replicate 32 0
  goOutRuns := Vector.replicate 32 0
  stopFailed := 0
  clearFailed := 0
  goFailed := 0

/-- A sign record's state at the end of a reset (R142, R146). -/
def Sign.atReset : Sign := ⟨.unknown, 0, ⟨false, false, false⟩⟩

/-- The sign link at the end of a reset (R146). -/
def SignLink.atReset : SignLink where
  image := Vector.replicate 128 0
  signs := Vector.replicate 16 Sign.atReset
  sequence := 0
  cursor := 0
  poll := none
  frame := none
  line := []
  windowOpen := false
  firstFrame := true

/-- The mode controller at the end of a reset: START_FLASH, cause RESET, the start-flash timer running from 0 (R68). -/
def ModeControl.atReset : ModeControl :=
  ⟨.startFlash, .reset, false, 0, 0, 0, true, ⟨false, false⟩, ⟨false, false⟩, ⟨false, false⟩⟩

/-- The machine right after the first reset of its life: every value the rules R22, R44, R68, R82, R99, R112, R129, R146, R159, R162 and
R179 state for the end of a reset, on the non-volatile contents of the start of the device's life, with the straps read as 0
(DESIGN CHOICE, notes/assumptions/3.md). -/
def State.reset : State where
  powerOnHeld := false
  externalHeld := false
  clock := 0
  groups := Vector.replicate 32 Group.unconfigured
  arbiter := ⟨Vector.replicate 32 65535, 0⟩
  mode := ModeControl.atReset
  page := ⟨⟨0, false, false⟩, ⟨0, false, false⟩, ⟨0, false, false⟩, 0, 0⟩
  tap := ⟨0, Config.defaultLevelMap⟩
  lamps := LampMonitor.atReset
  detectors := ⟨Vector.replicate 48 Detector.atReset, 0, 0⟩
  link := SignLink.atReset
  queue := ⟨[], 0, 0, false, 0, 0, [], false, false, 0⟩
  store := ⟨NonVolatile.factory, Tables.zero, false, .none⟩
  latches := ⟨0, 0, 0, 0, 0, 0, 0, 0, 0, 0⟩
  bus := ⟨none, none⟩
  parts := EventParts.idle
  pending := []

end Sys2Proof.Machine
end

