-- ==== Sys2Proof/Machine/Codes.lean ====
section
/-! DEFINITION. The numeric code of every named value and the packing of the event details (R177; 11.4, 11.5, 11.7, 11.8, 11.10). -/

namespace Sys2Proof.Machine

open Sys2Proof

/-- The state codes of 11.4. -/
def groupStateCode : GroupState → Nat
  | .unlit => 0
  | .flashing => 1
  | .stop => 2
  | .prepare => 3
  | .go => 4
  | .clearing => 5

/-- The mode codes of 11.5. -/
def modeCode : Mode → Nat
  | .startFlash => 0
  | .allStop => 1
  | .normal => 2
  | .toFlash => 3
  | .flash => 4
  | .dark => 5
  | .faultFlash => 6

/-- The mode cause codes of 11.5. -/
def causeCode : Cause → Nat
  | .reset => 0
  | .software => 1
  | .liveness => 2
  | .refusals => 3
  | .switch => 4
  | .fault => 5

/-- The fault cause codes of 11.5. -/
def faultCauseCode : FaultCause → Nat
  | .conflict => 1
  | .uncommandedGo => 2
  | .redOut => 3

/-- The event kind codes of 11.8. -/
def eventKindCode : EventKind → Nat
  | .timeMark => 1
  | .mode => 2
  | .groupState => 3
  | .stopHeld => 4
  | .lateCancel => 5
  | .hold => 6
  | .fault => 7
  | .lampFail => 8
  | .detOccupied => 9
  | .detFree => 10
  | .detPulse => 11
  | .detCount => 12
  | .detFault => 13
  | .detRecover => 14
  | .signLive => 15
  | .signSilent => 16
  | .signStatus => 17
  | .refused => 18
  | .mirrorMismatch => 19
  | .commit => 20

/-- The refusal reason codes of 11.8. -/
def reasonCode : Reason → Nat
  | .level => 1
  | .readOnly => 2
  | .value => 3
  | .mode => 4
  | .switchOpen => 5
  | .unconfigured => 6
  | .locked => 7
  | .busy => 8
  | .frozen => 9
  | .overflow => 10

/-- The section codes of 11.10, which are also the bit numbers of the lock flags. -/
def sectionCode : Section → Nat
  | .conflict => 0
  | .intergreen => 1
  | .groups => 2
  | .holds => 3
  | .signs => 4
  | .timing => 5
  | .levels => 6

/-- The detector kind codes of 11.7. -/
def detectorKindCode : DetectorKind → Nat
  | .off => 0
  | .presence => 1
  | .pulse => 2
  | .count => 3

/-- The detector kind a two-bit code names (11.7). -/
def detectorKindOf (code : BitVec 2) : DetectorKind :=
  if code = 0 then .off else if code = 1 then .presence else if code = 2 then .pulse else .count

/-- The detector state codes of 11.7. -/
def detectorStateCode : DetectorState → Nat
  | .disabled => 0
  | .free => 1
  | .occupied => 2
  | .faultedOn => 3
  | .faultedOff => 4

/-- The line codes of 11.8 (LAMP_FAIL). -/
def lineCode : Line → Nat
  | .stop => 0
  | .clear => 1
  | .go => 2

/-- A word from its low and high byte. -/
def wordOf (low high : Nat) : Word := BitVec.ofNat 16 (low % 256 + 256 * (high % 256))

/-- A word with one bit set or clear. -/
def bitWord (b : Bool) (k : Nat) : Word := if b then BitVec.ofNat 16 (2 ^ k) else 0

/-- MODE: "bits 0–3 new mode; bits 4–7 mode left; bits 8–11 new cause" (11.8). -/
def modeDetail (new old : Mode) (cause : Cause) : Word :=
  BitVec.ofNat 16 (modeCode new + 16 * modeCode old + 256 * causeCode cause)

/-- GROUP_STATE: "new state (low byte), state left (high byte)" (11.8). -/
def groupDetail (new old : GroupState) : Word := wordOf (groupStateCode new) (groupStateCode old)

/-- FAULT: "bits 0–7 second group, or FFh; bits 8–9 cause; bit 15 latched" (11.8). -/
def faultDetail (cause : FaultCause) (second : Byte) (latched : Bool) : Word :=
  BitVec.ofNat 16 (second.toNat + 256 * faultCauseCode cause) ||| bitWord latched 15

/-- LAMP_FAIL: "line (low byte); group state (high byte)" (11.8). -/
def lampFailDetail (line : Line) (st : GroupState) : Word := wordOf (lineCode line) (groupStateCode st)

/-- REFUSED: "bits 0–9 word offset; bits 10–11 access level; bits 12–15 reason" (11.8). -/
def refusedDetail (reason : Reason) (level : Level) (offset : Nat) : Word :=
  BitVec.ofNat 16 (offset % 1024 + 1024 * level.toNat + 4096 * reasonCode reason)

/-- The three flags in the bits of the STATUS byte: 0 display fault, 1 door open, 2 supply fault (11.11). -/
def statusCode (f : SignStatus) : Nat :=
  (if f.displayFault then 1 else 0) + (if f.doorOpen then 2 else 0) + (if f.supplyFault then 4 else 0)

/-- The flags a STATUS byte carries; "the other bits of the byte are not looked at" (R142). -/
def statusOf (b : Byte) : SignStatus := ⟨b.getLsbD 0, b.getLsbD 1, b.getLsbD 2⟩

/-- SIGN_STATUS: "new flags (low byte), flags replaced (high byte)" (11.8). -/
def signStatusDetail (new old : SignStatus) : Word := wordOf (statusCode new) (statusCode old)

/-- The result codes of the commit result word (11.10). -/
def resultCode : CommitResult → Nat
  | .none => 0
  | .refused _ => 1
  | .invalid _ _ _ => 2
  | .unchanged => 3
  | .done => 4

/-- COMMIT: "result (low byte); violation code 1–10 for V01–V10 (high byte), 0 otherwise" (11.8). -/
def commitDetail : CommitResult → Word
  | .invalid code _ _ => wordOf 2 code
  | r => wordOf (resultCode r) 0

/-- The address area codes of 11.1 that a REFUSED record's subject holds. -/
def areaOfPage (page : Nat) : Byte := if 8 ≤ page ∧ page ≤ 11 then 8 else BitVec.ofNat 8 page

end Sys2Proof.Machine
end

