-- ==== Sys2Proof/Machine/Tables.lean ====
section
/-! DEFINITION. The safety tables: their fields (R3, R130, R160), the staging words of 11.10, the sections (R165) and validation (R169). -/

namespace Sys2Proof.Machine

open Sys2Proof

/-! ### Fields -/

/-- `C[j][i]` (R23): bit `i` of row `j`. -/
def Tables.conflictBit (t : Tables) (j i : GroupNo) : Bool := (t.conflict.get j).getLsbD i.val

/-- `IG[j][i]` in deciseconds (R24). -/
def Tables.intergreenOf (t : Tables) (j i : GroupNo) : Nat := ((t.intergreen.get j).get i).toNat

/-- A used record has "its address 1 to 16" (R130). -/
def SignRecord.used (r : SignRecord) : Bool := 1 ≤ r.address.toNat && r.address.toNat ≤ 16

/-- The bound group, none for FFh and for the values 32 to 254 that name no group (11.10). -/
def SignRecord.boundGroup (r : SignRecord) : Option GroupNo :=
  if h : r.bound.toNat < 32 then some ⟨r.bound.toNat, h⟩ else none

/-- The channel lies in the record's span, "from the start channel to the start channel plus span minus 1" (R130). -/
def SignRecord.covers (r : SignRecord) (channel : Nat) : Bool :=
  r.start.toNat ≤ channel && channel < r.start.toNat + r.span.toNat

/-- The areas of the effective level map (R75), numbered as 11.5 places their two bits. -/
inductive LevelArea
  | request
  | signImage
  | detectors
  | portA
  | portB
  | serviceCounter
  | views
  deriving DecidableEq, Repr

/-- The place of a level area in a level map word (11.5). -/
def levelAreaIndex : LevelArea → Nat
  | .request => 0
  | .signImage => 1
  | .detectors => 2
  | .portA => 3
  | .portB => 4
  | .serviceCounter => 5
  | .views => 6

/-- The required level of an area in a level map (R75, 11.5). -/
def requiredLevel (map : BitVec 14) (area : LevelArea) : Level := (map >>> (2 * levelAreaIndex area)).setWidth 2

/-! ### Staging words (11.10) -/

/-- A byte-enabled merge over a stored word: an enabled byte takes the data, the other keeps its value (R81). -/
def mergeBytes (old data : Word) (e : ByteEnables) : Word :=
  (if e.high then data.extractLsb' 8 8 else old.extractLsb' 8 8) ++
    (if e.low then data.extractLsb' 0 8 else old.extractLsb' 0 8)

/-- The low byte of a word. -/
def lowByte (w : Word) : Byte := w.extractLsb' 0 8

/-- The high byte of a word. -/
def highByte (w : Word) : Byte := w.extractLsb' 8 8

/-- A 32-bit value from its low and high word: "its low half in the lower-addressed word" (00_scope.md). -/
def joinWords (low high : Word) : BitVec 32 := high ++ low

/-- The low half of a 32-bit value. -/
def lowWord (v : BitVec 32) : Word := v.extractLsb' 0 16

/-- The high half of a 32-bit value. -/
def highWord (v : BitVec 32) : Word := v.extractLsb' 16 16

/-- One half of a mask replaced by a word: word 0 holds groups 0–15, word 1 groups 16–31. -/
def setMaskWord (m : Mask) (second : Bool) (w : Word) : Mask :=
  if second then joinWords (lowWord m) w else joinWords w (highWord m)

/-- One word of a mask. -/
def maskWord (m : Mask) (second : Bool) : Word := if second then highWord m else lowWord m

/-- The word of a group record at place 0, 1 or 2 (11.10). -/
def GroupRecord.word (r : GroupRecord) (place : Nat) : Word :=
  if place = 0 then wordOf (r.kind.toNat + (if r.proving then 16 else 0) + (if r.redundant then 32 else 0)) r.aspect.toNat
  else if place = 1 then r.minimumGo
  else wordOf r.prepareTime.toNat r.clearingTime.toNat

/-- The group record with one of its words replaced; bits that hold no field are dropped (R178). -/
def GroupRecord.setWord (r : GroupRecord) (place : Nat) (w : Word) : GroupRecord :=
  if place = 0 then
    { r with kind := w.extractLsb' 0 4, proving := w.getLsbD 4, redundant := w.getLsbD 5, aspect := highByte w }
  else if place = 1 then { r with minimumGo := w }
  else { r with prepareTime := lowByte w, clearingTime := highByte w }

/-- The word of a sign record at place 0, 1 or 2 (11.10). -/
def SignRecord.word (r : SignRecord) (place : Nat) : Word :=
  if place = 0 then wordOf r.address.toNat r.start.toNat
  else if place = 1 then wordOf r.span.toNat r.bound.toNat
  else wordOf r.safe.toNat ((if r.whenStop then 1 else 0) + (if r.required then 2 else 0))

/-- The sign record with one of its words replaced; bits that hold no field are dropped (R178). -/
def SignRecord.setWord (r : SignRecord) (place : Nat) (w : Word) : SignRecord :=
  if place = 0 then { r with address := lowByte w, start := highByte w }
  else if place = 1 then { r with span := lowByte w, bound := highByte w }
  else { r with safe := lowByte w, whenStop := w.getLsbD 8, required := w.getLsbD 9 }

/-- The TIMING word at an index of V10's order, G at index 0 (11.10). -/
def Timing.word (t : Timing) (k : Nat) : Word :=
  if k = 0 then t.groupCount else if k = 1 then t.startFlash else if k = 2 then t.allStop else if k = 3 then t.flashEntry
  else if k = 4 then t.liveness else if k = 5 then t.provingDelay else t.refusalLimit

/-- TIMING with one of its words replaced. -/
def Timing.setWord (t : Timing) (k : Nat) (w : Word) : Timing :=
  if k = 0 then { t with groupCount := w } else if k = 1 then { t with startFlash := w }
  else if k = 2 then { t with allStop := w } else if k = 3 then { t with flashEntry := w }
  else if k = 4 then { t with liveness := w } else if k = 5 then { t with provingDelay := w }
  else { t with refusalLimit := w }

/-- Where a staging offset lies: its section and its place in it, as 11.10 lays the pages out. -/
inductive StagingPlace
  | conflictRow (j : GroupNo) (second : Bool)
  | intergreenPair (j : GroupNo) (even odd : GroupNo)
  | groupWord (g : GroupNo) (place : Nat)
  | holdMask (line : Fin 2) (second : Bool)
  | signWord (r : SignNo) (place : Nat)
  | timingWord (k : Nat)
  | levelMap
  | unassigned
  deriving DecidableEq, Repr

/-- A number brought into the range of a group number; the layouts only use it inside the range. -/
def groupNo (n : Nat) : GroupNo := ⟨n % 32, Nat.mod_lt _ (by decide)⟩

/-- A number brought into the range of a sign record number. -/
def signNo (n : Nat) : SignNo := ⟨n % 16, Nat.mod_lt _ (by decide)⟩

/-- A number brought into the range of a hold line. -/
def lineNo (n : Nat) : Fin 2 := ⟨n % 2, Nat.mod_lt _ (by decide)⟩

/-- The place of a staging offset, 0 to 1,023 (11.10). -/
def stagingPlace (k : Nat) : StagingPlace :=
  if k < 64 then .conflictRow (groupNo (k / 2)) (k % 2 = 1)
  else if k < 576 then .intergreenPair (groupNo ((k - 64) / 16)) (groupNo (2 * ((k - 64) % 16))) (groupNo (2 * ((k - 64) % 16) + 1))
  else if k < 672 then .groupWord (groupNo ((k - 576) / 3)) ((k - 576) % 3)
  else if k < 676 then .holdMask (lineNo ((k - 672) / 2)) (k % 2 = 1)
  else if k < 724 then .signWord (signNo ((k - 676) / 3)) ((k - 676) % 3)
  else if k < 731 then .timingWord (k - 724)
  else if k = 731 then .levelMap
  else .unassigned

/-- The section that holds a staging place (R160, 11.10). -/
def placeSection : StagingPlace → Section
  | .conflictRow _ _ => .conflict
  | .intergreenPair _ _ _ => .intergreen
  | .groupWord _ _ => .groups
  | .holdMask _ _ => .holds
  | .signWord _ _ => .signs
  | .timingWord _ => .timing
  | .levelMap => .levels
  | .unassigned => .levels

/-- The word of the tables at a staging place (11.10). -/
def Tables.word (t : Tables) : StagingPlace → Word
  | .conflictRow j second => maskWord (t.conflict.get j) second
  | .intergreenPair j even odd => wordOf ((t.intergreen.get j).get even).toNat ((t.intergreen.get j).get odd).toNat
  | .groupWord g place => (t.groups.get g).word place
  | .holdMask line second => maskWord (t.holds.get line) second
  | .signWord r place => (t.signs.get r).word place
  | .timingWord k => t.timing.word k
  | .levelMap => t.levels.setWidth 16
  | .unassigned => 0

/-- The tables with the word at a staging place replaced (R163); bits that hold no field are taken as 0 (R178). -/
def Tables.setWord (t : Tables) (p : StagingPlace) (w : Word) : Tables :=
  match p with
  | .conflictRow j second => { t with conflict := t.conflict.set j (setMaskWord (t.conflict.get j) second w) }
  | .intergreenPair j even odd =>
    { t with intergreen := t.intergreen.set j (((t.intergreen.get j).set even (lowByte w)).set odd (highByte w)) }
  | .groupWord g place => { t with groups := t.groups.set g ((t.groups.get g).setWord place w) }
  | .holdMask line second => { t with holds := t.holds.set line (setMaskWord (t.holds.get line) second w) }
  | .signWord r place => { t with signs := t.signs.set r ((t.signs.get r).setWord place w) }
  | .timingWord k => { t with timing := t.timing.setWord k w }
  | .levelMap => { t with levels := w.setWidth 14 }
  | .unassigned => t

/-- One section of `src` copied into `dst` (R165). -/
def copySection (sec : Section) (src dst : Tables) : Tables :=
  match sec with
  | .conflict => { dst with conflict := src.conflict }
  | .intergreen => { dst with intergreen := src.intergreen }
  | .groups => { dst with groups := src.groups }
  | .holds => { dst with holds := src.holds }
  | .signs => { dst with signs := src.signs }
  | .timing => { dst with timing := src.timing }
  | .levels => { dst with levels := src.levels }

/-- The seven sections in the order of their codes (11.10). -/
def allSections : List Section := [.conflict, .intergreen, .groups, .holds, .signs, .timing, .levels]

/-- Every section whose flag is set in `flags` copied from `src` into `dst` (R165). -/
def copySections (flags : BitVec 7) (src dst : Tables) : Tables :=
  allSections.foldl (fun t sec => if flags.getLsbD (sectionCode sec) then copySection sec src t else t) dst

/-! ### Validation (R169) -/

/-- `x` lies from `lo` to `hi`. -/
def inRange (lo hi x : Nat) : Bool := lo ≤ x && x ≤ hi

/-- The columns of R3: P, MG, CL and the flash aspect of a record by its kind; a kind of 3 or more names no kind. -/
def GroupRecord.legal (r : GroupRecord) : Bool :=
  if r.kind = 0 then
    inRange 10 30 r.prepareTime.toNat && inRange 30 600 r.minimumGo.toNat && inRange 30 60 r.clearingTime.toNat &&
      inRange 0 2 r.aspect.toNat
  else if r.kind = 1 then
    r.prepareTime = 0 && inRange 30 600 r.minimumGo.toNat && inRange 20 200 r.clearingTime.toNat && r.aspect = 0
  else if r.kind = 2 then
    r.prepareTime = 0 && inRange 30 600 r.minimumGo.toNat && inRange 20 100 r.clearingTime.toNat &&
      (r.aspect = 0 || r.aspect = 2)
  else false

/-- "A configured group is a group numbered below the G that staging holds" (R169). -/
def Tables.has (t : Tables) (g : GroupNo) : Bool := g.val < t.timing.groupCount.toNat

/-- "A used record is a sign record of staging whose address is not 0" (R169). -/
def SignRecord.usedInStaging (r : SignRecord) : Bool := r.address ≠ 0

/-- The least group that `bad` holds of. -/
def leastGroup (bad : GroupNo → Bool) : Option Nat := ((List.finRange 32).find? bad).map (·.val)

/-- The least pair that `bad` holds of, as `j × 32 + i`. -/
def leastPair (bad : GroupNo → GroupNo → Bool) : Option Nat :=
  (List.finRange 32).findSome? fun j => ((List.finRange 32).find? (bad j)).map fun i => j.val * 32 + i.val

/-- The least sign record that `bad` holds of. -/
def leastSign (bad : SignNo → Bool) : Option Nat := ((List.finRange 16).find? bad).map (·.val)

/-- V01: G outside 1–32. -/
def v01 (t : Tables) : Option Nat := if inRange 1 32 t.timing.groupCount.toNat then none else some 0

/-- V02: a configured group's record outside its kind's column, or of no kind. -/
def v02 (t : Tables) : Option Nat := leastGroup fun g => t.has g && !(t.groups.get g).legal

/-- V03: `C[i][i]` set for a configured group. -/
def v03 (t : Tables) : Option Nat := leastGroup fun i => t.has i && t.conflictBit i i

/-- V04: `C[j][i]` differing from `C[i][j]` for configured groups j < i. -/
def v04 (t : Tables) : Option Nat :=
  leastPair fun j i => decide (j < i) && t.has j && t.has i && (t.conflictBit j i != t.conflictBit i j)

/-- V05: `IG[j][i]` less than `CL_j` where `C[j][i]` is set between configured groups. -/
def v05 (t : Tables) : Option Nat :=
  leastPair fun j i =>
    t.has j && t.has i && t.conflictBit j i && decide (t.intergreenOf j i < (t.groups.get j).clearingTime.toNat)

/-- V06: a hold mask with the flag of an unconfigured group set. -/
def v06 (t : Tables) : Option Nat :=
  ((List.finRange 2).find? fun line =>
    (List.finRange 32).any fun g => (t.holds.get line).getLsbD g.val && !t.has g).map (·.val)

/-- V07: a used record's address above 16, or equal to the address of a lower-numbered used record. -/
def v07 (t : Tables) : Option Nat :=
  leastSign fun r =>
    let x := t.signs.get r
    x.usedInStaging && (decide (16 < x.address.toNat) ||
      (List.finRange 16).any fun q => decide (q < r) && (t.signs.get q).usedInStaging && (t.signs.get q).address == x.address)

/-- Two spans share a channel. -/
def SignRecord.overlaps (x y : SignRecord) : Bool :=
  decide (x.start.toNat < y.start.toNat + y.span.toNat) && decide (y.start.toNat < x.start.toNat + x.span.toNat)

/-- V08: a used record's span outside 1–16, its start channel outside 0–127, start plus span above 128, or a channel shared with a
lower-numbered used record. -/
def v08 (t : Tables) : Option Nat :=
  leastSign fun r =>
    let x := t.signs.get r
    x.usedInStaging && (!inRange 1 16 x.span.toNat || !inRange 0 127 x.start.toNat || decide (128 < x.start.toNat + x.span.toNat) ||
      (List.finRange 16).any fun q => decide (q < r) && (t.signs.get q).usedInStaging && (t.signs.get q).overlaps x)

/-- V09: a used record bound to a group that is not configured, or marked required with no bound group. -/
def v09 (t : Tables) : Option Nat :=
  leastSign fun r =>
    let x := t.signs.get r
    x.usedInStaging && (if x.bound = 0xFF then x.required else decide (t.timing.groupCount.toNat ≤ x.bound.toNat))

/-- V10: a mode timer limit, L, PD or the refusal limit out of its range; the index is the field's. -/
def v10 (t : Tables) : Option Nat :=
  if !inRange 30 600 t.timing.startFlash.toNat then some 1
  else if !inRange 20 100 t.timing.allStop.toNat then some 2
  else if !inRange 20 100 t.timing.flashEntry.toNat then some 3
  else if !inRange 5 100 t.timing.liveness.toNat then some 4
  else if !inRange 2 10 t.timing.provingDelay.toNat then some 5
  else if !inRange 0 1023 t.timing.refusalLimit.toNat then some 6
  else none

/-- One condition's outcome as a violation with its code and section. -/
def violation (code : Nat) (sec : Section) (v : Option Nat) : Option (Nat × Section × Nat) := v.map fun k => (code, sec, k)

/-- The first violated condition in the fixed order V01 to V10, with its section and its lowest index; none for a valid set (R169). -/
def Tables.firstViolation (t : Tables) : Option (Nat × Section × Nat) :=
  (violation 1 .timing (v01 t)).or <| (violation 2 .groups (v02 t)).or <| (violation 3 .conflict (v03 t)).or <|
    (violation 4 .conflict (v04 t)).or <| (violation 5 .intergreen (v05 t)).or <| (violation 6 .holds (v06 t)).or <|
    (violation 7 .signs (v07 t)).or <| (violation 8 .signs (v08 t)).or <| (violation 9 .signs (v09 t)).or <|
    violation 10 .timing (v10 t)

end Sys2Proof.Machine
end

