-- ==== Sys2Proof/Machine/Flags.lean ====
section
/-! DEFINITION. What the blocks compute from the state without changing it: configured groups, requests, the flasher and the lamp lines,
hold masking, ATTN, the stretched senses and commanded-GO, the standing calls. -/

namespace Sys2Proof.Machine

open Sys2Proof

/-! ### Masks -/

/-- The mask with one group's bit. -/
def groupBit (g : GroupNo) : Mask := BitVec.ofNat 32 (2 ^ g.val)

/-- The mask of the groups that `p` holds of. -/
def maskOf (p : GroupNo → Bool) : Mask :=
  (List.finRange 32).foldl (fun m g => if p g then m ||| groupBit g else m) 0

/-- Adding 1 up to a limit: "it stops at the stated limit rather than wrapping" (00_scope.md, Quantities and limits). -/
def satAdd (n limit : Nat) : Nat := min (n + 1) limit

/-! ### Resets and groups -/

/-- A power-on reset or the external reset line is held (R82). -/
def State.held (s : State) : Bool := s.powerOnHeld || s.externalHeld

/-- The active tables. -/
def State.active (s : State) : Tables := s.store.nv.active

/-- The number of configured groups: G, or none on an UNCONFIGURED device (R4). -/
def State.groupCount (s : State) : Nat := if s.store.nv.valid then s.active.timing.groupCount.toNat else 0

/-- "Group i is configured when i is less than G" (R4). -/
def State.configured (s : State) (g : GroupNo) : Bool := decide (g.val < s.groupCount)

/-- The mask of the configured groups. -/
def State.configuredMask (s : State) : Mask := maskOf s.configured

/-- The group sequencer's record of a group. -/
def State.group (s : State) (g : GroupNo) : Group := s.groups.get g

/-- The group record of a group in the active tables (R3). -/
def State.record (s : State) (g : GroupNo) : GroupRecord := s.active.groups.get g

/-- P of a group in deciseconds (R5). -/
def State.prepareTime (s : State) (g : GroupNo) : Nat := (s.record g).prepareTime.toNat

/-- MG of a group in deciseconds (R5). -/
def State.minimumGo (s : State) (g : GroupNo) : Nat := (s.record g).minimumGo.toNat

/-- CL of a group in deciseconds (R5). -/
def State.clearingTime (s : State) (g : GroupNo) : Nat := (s.record g).clearingTime.toNat

/-- Groups `j` and `i` are configured and `C[j][i]` is set: `j` is in conflict with `i` (R23). -/
def State.inConflict (s : State) (j i : GroupNo) : Bool := s.configured j && s.configured i && s.active.conflictBit j i

/-- The GO mask handed to the group sequencer: the mirror of words 0 and 1 (R84). -/
def State.goMask (s : State) : Mask := joinWords s.page.word0.value s.page.word1.value

/-- A group's request as the group sequencer sees it: the GO-mask bit, and clear throughout TO_FLASH (chapter 1.5, R56). -/
def State.requested (s : State) (g : GroupNo) : Bool :=
  s.configured g && s.goMask.getLsbD g.val && decide (s.mode.mode ≠ .toFlash)

/-- "A group is pending while it is in STOP and its request is set" (R12). -/
def State.isPending (s : State) (g : GroupNo) : Bool := decide ((s.group g).state = .stop) && s.requested g

/-- Every configured group is in STOP (R52, R57). -/
def State.allStopped (s : State) : Bool :=
  (List.finRange 32).all fun g => !s.configured g || decide ((s.group g).state = .stop)

/-- The mode is NORMAL or TO_FLASH: asserted hold lines act on groups (R62). -/
def State.holdsAct (s : State) : Bool := s.mode.mode = .normal || s.mode.mode = .toFlash

/-- The mode is ALL_STOP or NORMAL: the liveness timer runs and the refusal trigger acts (R54, R55). -/
def Mode.supervised (m : Mode) : Bool := m = .allStop || m = .normal

/-- The mode is START_FLASH, FLASH, DARK or FAULT_FLASH, in which no GO line is driven (R67). -/
def Mode.flashing (m : Mode) : Bool := m = .startFlash || m = .flash || m = .dark || m = .faultFlash

/-- "Group i is masked by a line when its bit is set in that line's mask"; it is held while either line that masks it is asserted (R30). -/
def State.heldByLine (s : State) (g : GroupNo) : Bool :=
  (s.mode.h0.level && (s.active.holds.get 0).getLsbD g.val) || (s.mode.h1.level && (s.active.holds.get 1).getLsbD g.val)

/-! ### The flasher and the lamp lines -/

/-- "The common flasher is on while the clock modulo 10 is less than 5" (R2). -/
def State.flasher (s : State) : Bool := s.clock.toNat % 10 < 5

/-- How a lamp line is driven (R6; codes 0, 1, 2 in 11.4). -/
inductive Drive
  | off
  | steady
  | flashing
  deriving DecidableEq, Repr

/-- The drive codes of 11.4. -/
def driveCode : Drive → Nat
  | .off => 0
  | .steady => 1
  | .flashing => 2

/-- The table of R6: the drive of a line by the group's state and record. -/
def lineDrive (r : GroupRecord) (st : GroupState) (line : Line) : Drive :=
  match st, line with
  | .flashing, .clear => if r.aspect = 1 then .flashing else .off
  | .flashing, .stop => if r.aspect = 2 then .flashing else .off
  | .stop, .stop => .steady
  | .prepare, .stop => .steady
  | .prepare, .clear => .steady
  | .go, .go => .steady
  | .clearing, .clear => if r.kind = 1 then .off else .steady
  | .clearing, .go => if r.kind = 1 then .flashing else .off
  | _, _ => .off

/-- The drive of a group's line: an unconfigured group drives none (R4), and none is driven while a reset is held (R22). -/
def State.drive (s : State) (g : GroupNo) (line : Line) : Drive :=
  if s.held || !s.configured g then .off else lineDrive (s.record g) (s.group g).state line

/-- The line is driven on at this moment (R6, R7). -/
def State.lineOn (s : State) (g : GroupNo) (line : Line) : Bool :=
  match s.drive g line with
  | .off => false
  | .steady => true
  | .flashing => s.flasher

/-- The groups whose GO line is driven on at this moment (R7). -/
def State.goLinesOn (s : State) : Mask := maskOf fun g => s.lineOn g .go

/-! ### The lamp monitor's views -/

/-- The raw sample, "standing until the next sample"; off before the first (R100, R112). -/
def LampMonitor.raw (l : LampMonitor) : SenseSample := l.samples.headD ⟨0, 0, 0⟩

/-- One line of a sample. -/
def senseLine (x : SenseSample) : Line → Mask
  | .stop => x.stop
  | .clear => x.clear
  | .go => x.go

/-- The stretched sense: "on when any of the six samples is on" (R101). -/
def LampMonitor.stretched (l : LampMonitor) (line : Line) : Mask :=
  l.samples.foldl (fun m x => m ||| senseLine x line) 0

/-- Commanded-GO: on when any of the last six intervals is marked (R102). -/
def LampMonitor.commandedGo (l : LampMonitor) : Mask := l.goIntervals.foldl (fun m x => m ||| x) 0

/-! ### Detectors -/

/-- "A detector maps a group when its kind is PRESENCE or PULSE and its call mask includes the group" (R122). -/
def Detector.mapped (d : Detector) : Mask := if d.kind = .presence ∨ d.kind = .pulse then d.callMask else 0

/-- The detector is in FAULTED_ON or FAULTED_OFF. -/
def Detector.faulted (d : Detector) : Bool := d.state = .faultedOn || d.state = .faultedOff

/-- The configured groups on which a faulted detector holds a standing call (R123). -/
def State.standing (s : State) : Mask :=
  ((List.finRange 48).foldl (fun m k =>
    let d := s.detectors.detectors.get k
    if d.faulted then m ||| d.mapped else m) 0) &&& s.configuredMask

/-! ### The event queue -/

/-- Reader A's view: the held records after those it has taken (R149). -/
def Queue.viewA (q : Queue) : List Record := q.held.drop q.takenA

/-- Reader B's view; empty while B is disabled (R149, R150). -/
def Queue.viewB (q : Queue) : List Record := if q.enabledB then q.held.drop q.takenB else []

/-- A reader's view. -/
def Queue.view (q : Queue) : Reader → List Record
  | .a => q.viewA
  | .b => q.viewB

/-- ATTN: high while A's view holds a record or the mode is FAULT_FLASH, low while a reset is held (R158). -/
def State.attn (s : State) : Bool := !s.held && (!s.queue.viewA.isEmpty || decide (s.mode.mode = .faultFlash))

/-- "The lowest-numbered group whose releasable flag is set, or FFFFh when no flag is set" (R40). -/
def Arbiter.firstReleasable (a : Arbiter) : Word :=
  match (List.finRange 32).find? fun g => a.releasable.getLsbD g.val with
  | some g => BitVec.ofNat 16 g.val
  | none => 0xFFFF

end Sys2Proof.Machine
end

