-- ==== Sys2Proof/Machine/Ops.lean ====
section
/-! DEFINITION. The operations the meanings share: submitting a record (R148), a group's entry into a state (R7, R8, R9, R21), the reports to
the mode controller (R46, R52, R57, R62), request changes (R13, R15, R17), calls (R123), changes of mode (R45) and fault entry (R64). -/

namespace Sys2Proof.Machine

open Sys2Proof

/-! ### The event queue -/

/-- The block that submits a kind of record (R147's table). -/
def EventKind.block : EventKind → Block
  | .timeMark => .eventQueue
  | .mode => .modeController
  | .groupState => .groupSequencer
  | .stopHeld => .groupSequencer
  | .lateCancel => .groupSequencer
  | .hold => .modeController
  | .fault => .modeController
  | .lampFail => .lampMonitor
  | .detOccupied => .detectorUnit
  | .detFree => .detectorUnit
  | .detPulse => .detectorUnit
  | .detCount => .detectorUnit
  | .detFault => .detectorUnit
  | .detRecover => .detectorUnit
  | .signLive => .signLink
  | .signSilent => .signLink
  | .signStatus => .signLink
  | .refused => .busTap
  | .mirrorMismatch => .busTap
  | .commit => .tableStore

/-- A later submission of a moment stands after an earlier one wherever a rule says so: both are of one block (R148), a FAULT record follows
the LAMP_FAIL records of its sample (R110), and the MODE record of the refusal trigger's own entry, which is to TO_FLASH, follows the REFUSED
record (R55, R86, R92). -/
def mustFollow (later earlier : Record) : Bool :=
  decide (later.kind.block = earlier.kind.block) ||
  (decide (later.kind = .fault) && decide (earlier.kind = .lampFail)) ||
  (decide (later.kind = .mode) && decide (later.detail.toNat % 16 = modeCode .toFlash) &&
    decide (later.detail.toNat / 256 = causeCode .refusals) && decide (earlier.kind = .refused))

/-- One submission as the queue takes it: stored at the tail with the missed count, or dropped and counted when 128 records are held
(R148, R154, R155). -/
def Queue.store (q : Queue) (r : Record) : Queue :=
  let r := { r with missed := q.missed }
  if q.held.length < Config.queueDepth then
    { q with held := q.held ++ [r], missed := 0, fresh := q.fresh + 1, dropped := [] }
  else { q with missed := satAdd q.missed Config.byteLimit, dropped := q.dropped ++ [r] }

/-- The submissions of the present moment in the order taken: those held, and, with the queue full, those dropped after them. -/
def Queue.moment (q : Queue) : List Record :=
  q.held.drop (q.held.length - q.fresh) ++ (if q.held.length < Config.queueDepth then [] else q.dropped)

/-- The newest `n` submissions of the present moment. -/
def Queue.late (q : Queue) (n : Nat) : List Record := q.moment.drop (q.moment.length - n)

/-- The queue as it stood before the newest `n` submissions of the present moment; each carries the missed count it found. -/
def Queue.rewind (q : Queue) (n : Nat) : Queue :=
  let kept := q.moment.take (q.moment.length - n)
  let stored := min q.fresh q.held.length
  { q with
    held := q.held.take (q.held.length - q.fresh) ++ kept.take stored
    fresh := (kept.take stored).length
    dropped := kept.drop stored
    missed := ((q.late n).head?.map (·.missed)).getD q.missed }

/-- An act of the queue taken before the newest `n` submissions of the present moment, which are then taken in their order. -/
def Queue.partWay (n : Nat) (act : Queue → Queue) (q : Queue) : Queue :=
  match n with
  | 0 => act q
  | n + 1 => (q.late (n + 1)).foldl Queue.store (act (q.rewind (n + 1)))

/-- How many of the newest submissions of the present moment a record need not follow. -/
def Queue.passes (q : Queue) (r : Record) : Nat := (q.moment.reverse.takeWhile fun x => !mustFollow r x).length

/-- How many of the newest submissions of the moment a new one is taken before: "Records submitted by different blocks at the same moment may
be taken in either order" (R148). The free value chooses, among those it need not follow. -/
def Queue.place (q : Queue) (r : Record) : Nat :=
  match q.passes r with
  | 0 => 0
  | n + 1 => min (Config.recordOrder q.choices) (n + 1)

/-- A submission, taken at its place among those of the present moment (R148; notes/assumptions/2.md). -/
def Queue.submit (q : Queue) (kind : EventKind) (stamp : Word) (subject : Byte) (detail : Word) : Queue :=
  let r : Record := ⟨kind, stamp, subject, detail, 0⟩
  { q.partWay (q.place r) (·.store r) with choices := q.choices + 1 }

/-- What was submitted so far stands as it is: no later submission is taken before it. -/
def Queue.settled (q : Queue) : Queue := { q with fresh := 0, dropped := [] }

/-- The present moment is over (notes/assumptions/41.md). -/
def Queue.endMoment (q : Queue) : Queue := { q.settled with accessed := false, sampled := false }

/-- A processor access begins: no two are at one moment, so that a second one begins a moment of its own (notes/assumptions/41.md). -/
def Queue.atAccess (q : Queue) : Queue := { (if q.accessed then q.endMoment else q) with accessed := true }

/-- A sample of the detector inputs is taken: samples are a millisecond apart (R115), so that a second one begins a moment of its own, and its
records follow those submitted before it (R128, notes/assumptions/41.md). -/
def Queue.atSample (q : Queue) : Queue := { (if q.sampled then q.endMoment else q) with sampled := true }

/-- A block submits a record; "the stamp is fixed from the clock as it stands at that moment" (R148). -/
def submit (kind : EventKind) (subject : Byte) (detail : Word) (s : State) : State :=
  { s with queue := s.queue.submit kind (lowWord s.clock) subject detail }

/-- TIME_MARK: "its detail the high 16 bits, and its subject is absent" (R156). -/
def submitTimeMark (s : State) : State := submit .timeMark Config.absent (highWord s.clock) s

/-! ### Groups -/

/-- Every configured group in ascending number takes `f` (R8, R10). -/
def forGroups (f : GroupNo → State → State) (s : State) : State :=
  (List.finRange 32).foldl (fun s g => if s.configured g then f g s else s) s

/-- A group's record replaced. -/
def State.setGroup (s : State) (g : GroupNo) (x : Group) : State := { s with groups := s.groups.set g x }

/-- An entry taken while the sequencer's step of the present decisecond event is still due holds the group's timers and age back until
the next event, and E where the entry set it (R35, R46; notes/assumptions/1.md). -/
def EventParts.noteEntry (p : EventParts) (g : GroupNo) (setsElapsed : Bool) : EventParts :=
  if p.sequencer then
    { p with
      heldTimers := p.heldTimers ||| groupBit g
      heldAges := p.heldAges ||| groupBit g
      heldElapsed := if setsElapsed then p.heldElapsed ||| groupBit g else p.heldElapsed }
  else p

/-- A GO line driven on at any moment marks the running sample interval (R102). -/
def markGoLine (g : GroupNo) (s : State) : State :=
  { s with lamps := { s.lamps with goMark := if s.lineOn g .go then s.lamps.goMark ||| groupBit g else s.lamps.goMark } }

/-- A group enters a state: timers and flags as R9 gives (the held-stop flag as `held` says), E as `elapsed` says, age 0, the lines of the
new state, and a GROUP_STATE record (R7, R8, R9, R21). -/
def enterGroup (g : GroupNo) (st : GroupState) (elapsed : Option Nat) (held : Bool) (s : State) : State :=
  let old := s.group g
  let moved := s.setGroup g ⟨st, 0, 0, 0, false, held, elapsed.getD old.elapsed, 0⟩
  submit .groupState (BitVec.ofNat 8 g.val) (groupDetail st old.state)
    (markGoLine g { moved with parts := s.parts.noteEntry g elapsed.isSome })

/-- The all-stop or the flash-entry timer starts at 0 when every configured group is in STOP; a start within a decisecond event whose
mode timer part is still due takes its first advance at the next event (R47, R52, R57). -/
def startStoppedTimer (s : State) : State :=
  if (s.mode.mode = .allStop ∨ s.mode.mode = .toFlash) ∧ s.mode.running = false ∧ s.allStopped = true then
    { s with
      mode := { s.mode with running := true, allStopTimer := 0, flashEntryTimer := 0 }
      parts := { s.parts with heldModeTimer := s.parts.modeTimer } }
  else s

/-- Entry to STOP, reported to the mode controller (R46). -/
def enterStop (g : GroupNo) (elapsed : Option Nat) (s : State) : State :=
  startStoppedTimer (enterGroup g .stop elapsed false s)

/-- Entry to CLEARING: clearing-timer and E 0 (R19). -/
def enterClearing (g : GroupNo) (s : State) : State := enterGroup g .clearing (some 0) false s

/-- The rule of hold lines for one group: a masked group in GO is truncated into CLEARING, one in PREPARE aborted into STOP with E
unchanged, while the mode is NORMAL or TO_FLASH (R62). -/
def holdRule (g : GroupNo) (s : State) : State :=
  if s.holdsAct = true ∧ s.configured g = true ∧ s.heldByLine g = true then
    match (s.group g).state with
    | .go => enterClearing g s
    | .prepare => enterStop g none s
    | _ => s
  else s

/-- The hold rule over every configured group (R62). -/
def holdSweep (s : State) : State := forGroups holdRule s

/-- The call bits of `m` are cleared, and set again at once where a faulted detector holds a standing call (R123, R124). -/
def clearCalls (m : Mask) (s : State) : State :=
  { s with detectors := { s.detectors with calls := (s.detectors.calls &&& ~~~m) ||| (s.standing &&& m) } }

/-- The call bits of `m` are set, for configured groups alone (R122, R123, R125). -/
def setCalls (m : Mask) (s : State) : State :=
  { s with detectors := { s.detectors with calls := s.detectors.calls ||| (m &&& s.configuredMask) } }

/-- Entry to GO, from PREPARE or by a grant with P = 0: go-timer 0, the held-stop flag set where a late cancel is carried in, the
call-clear, and the report to the mode controller (R16, R62, R123). -/
def enterGo (g : GroupNo) (s : State) : State :=
  holdRule g (clearCalls (groupBit g) (enterGroup g .go none (s.group g).lateCancel s))

/-- Entry to PREPARE by a grant with P greater than 0 (R14), reported to the mode controller (R62). -/
def enterPrepare (g : GroupNo) (s : State) : State := holdRule g (enterGroup g .prepare none false s)

/-- A grant: into PREPARE, or directly into GO when P is 0 (R14). -/
def grant (g : GroupNo) (s : State) : State := if 0 < s.prepareTime g then enterPrepare g s else enterGo g s

/-- An order into FLASHING or UNLIT; a group already there is not moved and raises no event (R8, R21). -/
def orderGroup (st : GroupState) (g : GroupNo) (s : State) : State :=
  if (s.group g).state = st then s else enterGroup g st none false s

/-- Every configured group ordered into a state. -/
def orderAll (st : GroupState) (s : State) : State := forGroups (orderGroup st) s

/-! ### Request changes -/

/-- A group's request age falls to 0; a group that becomes pending while the sequencer's step of the present event is due starts to age
at the next one (R12, R29). -/
def resetAge (g : GroupNo) (s : State) : State :=
  let s := s.setGroup g { s.group g with age := 0 }
  if s.parts.sequencer then { s with parts := { s.parts with heldAges := s.parts.heldAges ||| groupBit g } } else s

/-- Request set, by the group's state (R13, R15, R17). -/
def requestSet (g : GroupNo) (s : State) : State :=
  match (s.group g).state with
  | .stop => resetAge g s
  | .prepare => s.setGroup g { s.group g with lateCancel := false }
  | .go => s.setGroup g { s.group g with heldStop := false }
  | _ => s

/-- Request cleared, by the group's state: it ends pending in STOP, is a late cancel in PREPARE, and in GO a stop taken at once or held
until MG (R13, R15, R17). -/
def requestCleared (g : GroupNo) (s : State) : State :=
  match (s.group g).state with
  | .stop => resetAge g s
  | .prepare =>
    submit .lateCancel (BitVec.ofNat 8 g.val) (BitVec.ofNat 16 (s.prepareTime g - (s.group g).prepareTimer))
      (s.setGroup g { s.group g with lateCancel := true })
  | .go =>
    if s.minimumGo g ≤ (s.group g).goTimer then enterClearing g s
    else
      submit .stopHeld (BitVec.ofNat 8 g.val) (BitVec.ofNat 16 (s.minimumGo g - (s.group g).goTimer))
        (s.setGroup g { s.group g with heldStop := true })
  | _ => s

/-! ### Changes of mode -/

/-- The mode and its cause take new values: the mode timers stop at 0 (R47), the liveness timer stands at 0 outside ALL_STOP and NORMAL
(R54), and an entry to FLASH sets the refusal count to 0 (R58, R98). -/
def setMode (new : Mode) (cause : Cause) (s : State) : State :=
  { s with
    mode := { s.mode with
      mode := new, cause := cause, startFlashTimer := 0, allStopTimer := 0, flashEntryTimer := 0, running := false }
    page := { s.page with
      liveness := if new.supervised then s.page.liveness else 0
      refusals := if new = .flash then 0 else s.page.refusals }
    parts := { s.parts with heldModeTimer := false } }

/-- A change of mode: the new mode stands at the change (R45), then its MODE record, and the orders, whose GROUP_STATE records "may stand
before or after" it (R46). -/
def changeMode (new : Mode) (cause : Cause) (orders : State → State) (s : State) : State :=
  orders (submit .mode Config.absent (modeDetail new s.mode.mode cause) (setMode new cause s))

/-- The orders of ALL_STOP entry: AMBER_FLASH groups into CLEARING, the others into STOP, each with E 0 (R51). -/
def allStopOrder (g : GroupNo) (s : State) : State :=
  if (s.record g).aspect = 1 then enterClearing g s else enterStop g (some 0) s

/-- The liveness timer starts at 0 (R51, R54). -/
def startLiveness (s : State) : State :=
  { s with page := { s.page with liveness := 0 }, parts := { s.parts with heldLiveness := s.parts.liveness } }

/-- Entry to ALL_STOP, cause SOFTWARE (R51). -/
def allStopEntry (s : State) : State := startLiveness (changeMode .allStop .software (forGroups allStopOrder) s)

/-- The start of the treatment of a request as clear: it reaches a group whose GO-mask bit is set as request cleared (R56). -/
def endRequest (g : GroupNo) (s : State) : State := if s.goMask.getLsbD g.val then requestCleared g s else s

/-- What TO_FLASH entry makes of one group: its request ends (R56), and the hold rule is applied (R62; notes/assumptions/21.md). -/
def toFlashTurn (g : GroupNo) (s : State) : State := holdRule g (endRequest g s)

/-- Entry to TO_FLASH (R56, R62): the flash-entry timer starts if every configured group is in STOP already (R57), and one pass in ascending
group number treats each group, so that the GROUP_STATE records of the event stand in that order (R8). R8 and R90 leave open how records of
different kinds and groups stand to one another; here they stand in the order of the pass (DESIGN CHOICE, notes/assumptions/32.md). -/
def toFlashEntry (cause : Cause) (s : State) : State :=
  changeMode .toFlash cause (fun s => forGroups toFlashTurn (startStoppedTimer s)) s

/-- Entry to NORMAL with the cause of the ALL_STOP it ends (R52), and the hold rule (R62). -/
def normalEntry (s : State) : State := changeMode .normal s.mode.cause holdSweep s

/-- Entry to FLASH, ordering every configured group into FLASHING; a group already there is not moved (R57, R58). -/
def flashEntry (cause : Cause) (s : State) : State := changeMode .flash cause (orderAll .flashing) s

/-- The normal-pending flag set or cleared (R50). -/
def setNormalPending (b : Bool) (s : State) : State := { s with mode := { s.mode with normalPending := b } }

/-- Entry to DARK: every configured group into UNLIT, normal-pending cleared (R60). -/
def darkEntry (s : State) : State := setNormalPending false (changeMode .dark .software (orderAll .unlit) s)

/-- A declaration taken outside FAULT_FLASH: the last fault record and FAULT_ENTRIES together, normal-pending cleared, the FAULT record
before the MODE record, and every configured group into FLASHING, whose records "may stand before, between or after" the two (R64,
R65). -/
def faultEntry (cause : FaultCause) (first second : Byte) (s : State) : State :=
  let old := s.mode.mode
  let nv := { s.store.nv with
    lastFault := ⟨some cause, first, second, s.clock, old⟩
    faultEntries := satAdd s.store.nv.faultEntries Config.counterLimit }
  let s := setNormalPending false (setMode .faultFlash .fault { s with store := { s.store with nv := nv } })
  let s := submit .fault first (faultDetail cause second false) s
  orderAll .flashing (submit .mode Config.absent (modeDetail .faultFlash old .fault) s)

/-- A declaration reaches the mode controller: fault entry, or in FAULT_FLASH a FAULT record marked latched and nothing else (R64, R66). -/
def declareFault (cause : FaultCause) (first second : Byte) (s : State) : State :=
  if s.mode.mode = .faultFlash then submit .fault first (faultDetail cause second true) s
  else faultEntry cause first second s

end Sys2Proof.Machine
end

