-- ==== Sys2Proof/Machine/Arbiter.lean ====
section
/-! DEFINITION. The release arbiter: wait values (R25 to R27), releasability (R28 to R32), ranking (R36), the walk (R37), the grants (R38) and
the values software reads (R39, R40), in one EVALUATION (R33). -/

namespace Sys2Proof.Machine

open Sys2Proof

/-- A group in PREPARE or GO. -/
def GroupState.active (st : GroupState) : Bool := st = .prepare || st = .go

/-- The term of a conflicting group `j` against `i`: none for BLOCKED, else what is left of the intergreen (R25). -/
def term (s : State) (j i : GroupNo) : Option Nat :=
  if (s.group j).state.active then none else some (s.active.intergreenOf j i - (s.group j).elapsed)

/-- The groups in conflict with `i` (R23). -/
def conflictsOf (s : State) (i : GroupNo) : List GroupNo := (List.finRange 32).filter fun j => s.inConflict j i

/-- The wait of a configured group without reservations: BLOCKED if any term is, otherwise the largest term, 0 with no conflicting
group (R26). -/
def waitOf (s : State) (i : GroupNo) : Nat :=
  (conflictsOf s i).foldl (fun w j =>
    match term s j i with
    | none => Config.wordLimit
    | some t => max w t) 0

/-- Condition 5 for one sign record: not used, not required or not bound to the group, or LIVE with no display fault (R31). -/
def signAllows (s : State) (g : GroupNo) (r : SignNo) : Bool :=
  let x := s.active.signs.get r
  !(x.used && x.required && decide (x.boundGroup = some g)) ||
    (decide ((s.link.signs.get r).state = .live) && !(s.link.signs.get r).status.displayFault)

/-- Every required sign bound to the group is LIVE and reports no display fault (R28, R31, R143). -/
def signsAllow (s : State) (g : GroupNo) : Bool := (List.finRange 16).all (signAllows s g)

/-- The six conditions of R28. -/
def releasable (s : State) (g : GroupNo) : Bool :=
  decide (s.mode.mode = .normal) && s.configured g && s.isPending g && !s.heldByLine g && signsAllow s g &&
    decide (waitOf s g ≤ s.prepareTime g)

/-- `a` ranks before `b`: "greater request age first; where request ages are equal, lower group number first" (R36). -/
def ranksBefore (s : State) (a b : GroupNo) : Bool :=
  decide ((s.group b).age < (s.group a).age) || (decide ((s.group a).age = (s.group b).age) && decide (a < b))

/-- One candidate put into its place in a ranked list (R36). -/
def rankInsert (s : State) (g : GroupNo) : List GroupNo → List GroupNo
  | [] => [g]
  | x :: rest => if ranksBefore s g x then g :: x :: rest else x :: rankInsert s g rest

/-- The ranked list of the candidates (R36). -/
def ranked (s : State) (candidates : List GroupNo) : List GroupNo := candidates.foldr (rankInsert s) []

/-- The candidates of the evaluation (R28). -/
def candidates (s : State) : List GroupNo := (List.finRange 32).filter (releasable s)

/-- The walk: each candidate in turn is granted unless it is in conflict with a group already granted in this walk (R37). -/
def walk (s : State) (list : List GroupNo) : List GroupNo :=
  list.foldl (fun granted g => if granted.any fun j => s.inConflict j g then granted else g :: granted) []

/-- The groups the evaluation grants (R37). -/
def grantedGroups (s : State) : List GroupNo := walk s (ranked s (candidates s))

/-- The wait reported for a group: with the reservations of the walk; 65,535 for an unconfigured group (R39). -/
def reportedWait (s : State) (granted : List GroupNo) (i : GroupNo) : Nat :=
  if s.configured i then (if granted.any fun j => s.inConflict j i then Config.wordLimit else waitOf s i) else Config.wordLimit

/-- The values software reads after the evaluation (R39, R40). -/
def reported (s : State) : Arbiter where
  waits := Vector.ofFn fun i => reportedWait s (grantedGroups s) i
  releasable := maskOf (releasable s)

/-- The evaluation of the present decisecond event: decided on the state it reads, grants handed over in ascending group number
(R33, R38); without one due it is no event. -/
def evaluate (s : State) : State :=
  if s.parts.arbiter then
    let granted := grantedGroups s
    forGroups (fun g s => if granted.elem g then grant g s else s)
      { s with arbiter := reported s, parts := { s.parts with arbiter := false } }
  else s

/-- EVALUATION (R33). -/
def execEvaluation (s : State) : Host.Outcome State Fault Refusal := .next (evaluate s)

end Sys2Proof.Machine
end

