-- ==== Sys2Proof/Machine/EventPorts.lean ====
section
/-! DEFINITION. The event queue's own operations: a reader's take (R151), the enable of reader B (R152, R153) and the periodic time mark (R156). -/

namespace Sys2Proof.Machine

open Sys2Proof

/-- Reader A takes its head: it leaves the queue when B is disabled or has taken it, and stays held for B otherwise (R151). -/
def Queue.takeA (q : Queue) : Queue :=
  if q.viewA.isEmpty then q
  else if q.enabledB = false ∨ q.takenA < q.takenB then
    { q.settled with held := q.held.eraseIdx q.takenA, takenB := q.takenB - 1 }
  else { q.settled with takenA := q.takenA + 1 }

/-- Reader B takes its head: it leaves the queue when A has taken it, and stays held for A otherwise (R151). -/
def Queue.takeB (q : Queue) : Queue :=
  if q.viewB.isEmpty then q
  else if q.takenB < q.takenA then { q.settled with held := q.held.eraseIdx q.takenB, takenA := q.takenA - 1 }
  else { q.settled with takenB := q.takenB + 1 }

/-- A take by a reader; an empty view gives nothing to take (R150, R151). -/
def Queue.take (q : Queue) : Reader → Queue
  | .a => q.takeA
  | .b => q.takeB

/-- A write of reader B's enable: enabling gives B an empty view past every held record (R152), disabling removes the records A has taken
(R153), and the same value changes nothing. -/
def Queue.setEnableB (q : Queue) (enable : Bool) : Queue :=
  if enable = q.enabledB then q
  else if enable then { q.settled with enabledB := true, takenB := q.held.length }
  else { q.settled with enabledB := false, held := q.held.drop q.takenA, takenA := 0, takenB := 0 }

/-- A read of word 3 takes the head record for its reader (R150). -/
def takeRecord (reader : Reader) (s : State) : State := { s with queue := s.queue.take reader }

/-- A write to the control word, merged with its byte enables; the enable alone has a use (R152). -/
def writeControl (w : BusWrite) (s : State) : State :=
  { s with queue := s.queue.setEnableB (if w.enables.low then w.data.getLsbD 0 else s.queue.enabledB) }

/-- The event queue's part of the present decisecond event: a TIME_MARK where the clock's new value is a multiple of 600 (R156). -/
def markPart (s : State) : State :=
  if s.parts.mark then
    let t := { s with parts := { s.parts with mark := false } }
    if s.clock.toNat % Config.minute = 0 then submitTimeMark t else t
  else s

/-- TIME_MARK (R156). -/
def execTimeMark (s : State) : Host.Outcome State Fault Refusal := .next (markPart s)

end Sys2Proof.Machine
end

