-- ==== Sys2Proof/Machine/Detectors.lean ====
section
/-! DEFINITION. The detector unit: DETECTOR_SAMPLE and DETECTOR_STEP, and ACTIVATION, DEACTIVATION, DET_COUNT, STUCK_ON and STUCK_OFF
(chapter 7). A sample and a step are one event each (R128): the command of an activation, a count or a stuck fault is that event, in
the case that it happens in it. -/

namespace Sys2Proof.Machine

open Sys2Proof

/-- A detector of the unit. -/
def State.detector (s : State) (d : DetectorNo) : Detector := s.detectors.detectors.get d

/-- A detector replaced. -/
def State.setDetector (s : State) (d : DetectorNo) (x : Detector) : State :=
  { s with detectors := { s.detectors with detectors := s.detectors.detectors.set d x } }

/-- A detector record with the detector number as subject (R117). -/
def submitDetector (kind : EventKind) (d : DetectorNo) (detail : Word) (s : State) : State :=
  submit kind (BitVec.ofNat 8 d.val) detail s

/-- The groups in GO: an activation sets no call on them (R122). -/
def State.inGo (s : State) : Mask := maskOf fun g => decide ((s.group g).state = .go)

/-- One sample of the filter and whether the filtered level changes: a level that differs for more consecutive samples than the filter of
the direction it is moving in is taken (R116). -/
def filterSample (x : Bool) (v : Detector) : Detector × Bool :=
  let limit := if v.level then v.offFilter.toNat else v.onFilter.toNat
  if x = v.level then ({ v with run := 0 }, false)
  else if limit < v.run + 1 then ({ v with level := x, run := 0 }, true)
  else ({ v with run := v.run + 1 }, false)

/-- The counting of an activation: the accumulator, and whether it reaches N (R118). -/
def accumulate (v : Detector) : Detector × Bool :=
  if v.prescale.toNat ≤ v.accumulator + 1 then ({ v with accumulator := 0 }, true)
  else ({ v with accumulator := v.accumulator + 1 }, false)

/-- An activation from FREE: OCCUPIED with the occupancy timer at 0, then the record and the calls of the kind (R117, R118, R119, R122). -/
def occupy (d : DetectorNo) (s : State) : State :=
  let v : Detector := { s.detector d with state := .occupied, occupancy := 0 }
  match v.kind with
  | .presence => setCalls (v.mapped &&& ~~~s.inGo) (submitDetector .detOccupied d 0 (s.setDetector d v))
  | .pulse => setCalls (v.mapped &&& ~~~s.inGo) (submitDetector .detPulse d 0 (s.setDetector d v))
  | .count =>
    let c := accumulate v
    if c.2 then submitDetector .detCount d (lowWord v.total) (s.setDetector d c.1) else s.setDetector d c.1
  | .off => s

/-- An activation: the total rises and the activation-gap timer is set to 0 (R117); FAULTED_OFF recovers first, then as from FREE
(R121). -/
def activate (d : DetectorNo) (s : State) : State :=
  let v := s.detector d
  let t := s.setDetector d { v with total := v.total + 1, gap := 0 }
  match v.state with
  | .free => occupy d t
  | .faultedOff => occupy d (submitDetector .detRecover d 2 t)
  | _ => t

/-- A deactivation: OCCUPIED to FREE, with DET_FREE for a PRESENCE detector (R117); FAULTED_ON recovers to FREE with the gap timer at 0
(R121). -/
def deactivate (d : DetectorNo) (s : State) : State :=
  let v := s.detector d
  match v.state with
  | .occupied =>
    let t := s.setDetector d { v with state := .free }
    if v.kind = .presence then submitDetector .detFree d (BitVec.ofNat 16 (min v.occupancy Config.wordLimit)) t else t
  | .faultedOn => submitDetector .detRecover d 1 (s.setDetector d { v with state := .free, gap := 0 })
  | _ => s

/-- One detector's part of a sample: the raw input, and unless the kind is OFF the filter and its activation or deactivation (R115, R116). -/
def sampleDetector (inputs : BitVec 48) (s : State) (d : DetectorNo) : State :=
  let x := inputs.getLsbD d.val
  let v : Detector := { s.detector d with raw := x }
  if v.kind = .off then s.setDetector d v
  else
    let f := filterSample x v
    let t := s.setDetector d f.1
    if f.2 then (if x then activate d t else deactivate d t) else t

/-- A sample begins, at a moment of its own among samples. -/
def beginSample (s : State) : State := { s with queue := s.queue.atSample }

/-- The millisecond sample: the detectors in ascending number (R115, R128); none is taken while a reset is held. -/
def detectorSample (inputs : BitVec 48) (s : State) : State :=
  if s.held then s else (List.finRange 48).foldl (sampleDetector inputs) (beginSample s)

/-- DETECTOR_SAMPLE (R115). -/
def execDetectorSample (inputs : BitVec 48) (s : State) : Host.Outcome State Fault Refusal := .next (detectorSample inputs s)

/-- The sample changes the detector's filtered level (R116). -/
def levelChanges (d : DetectorNo) (inputs : BitVec 48) (s : State) : Bool :=
  !s.held && decide ((s.detector d).kind ≠ .off) && (filterSample (inputs.getLsbD d.val) (s.detector d)).2

/-- ACTIVATION (R117): the sample at which the detector's filtered level becomes active. -/
def execActivation (d : DetectorNo) (inputs : BitVec 48) (s : State) : Host.Outcome State Fault Refusal :=
  .next (if levelChanges d inputs s = true ∧ inputs.getLsbD d.val = true then detectorSample inputs s else s)

/-- DEACTIVATION (R117): the sample at which the detector's filtered level becomes inactive. -/
def execDeactivation (d : DetectorNo) (inputs : BitVec 48) (s : State) : Host.Outcome State Fault Refusal :=
  .next (if levelChanges d inputs s = true ∧ inputs.getLsbD d.val = false then detectorSample inputs s else s)

/-- The sample is an activation of a COUNT detector, in FREE or FAULTED_OFF, that brings its accumulator to N (R118). -/
def countCompletes (d : DetectorNo) (inputs : BitVec 48) (s : State) : Bool :=
  let v := s.detector d
  levelChanges d inputs s && inputs.getLsbD d.val && decide (v.kind = .count) &&
    decide (v.state = .free ∨ v.state = .faultedOff) && (accumulate v).2

/-- DET_COUNT (R118): the sample at which the detector's accumulator reaches N. -/
def execDetCount (d : DetectorNo) (inputs : BitVec 48) (s : State) : Host.Outcome State Fault Refusal :=
  .next (if countCompletes d inputs s then detectorSample inputs s else s)

/-- The advance of the two stuck timers by the state (R119, R120). -/
def advanceDetector (v : Detector) : Detector :=
  { v with
    occupancy := if v.state = .occupied then satAdd v.occupancy Config.detectorTimerLimit else v.occupancy
    gap := if v.state = .free ∨ v.state = .occupied then satAdd v.gap Config.detectorTimerLimit else v.gap }

/-- After the advance, the detector in OCCUPIED is past its stuck-on limit (R119). -/
def pastStuckOn (v : Detector) : Bool :=
  decide (v.state = .occupied) && decide (v.stuckOn ≠ 0) && decide (v.stuckOn.toNat * Config.minute + 1 ≤ (advanceDetector v).occupancy)

/-- After the advance, the detector in FREE is past its stuck-off limit (R120). -/
def pastStuckOff (v : Detector) : Bool :=
  decide (v.state = .free) && decide (v.stuckOff ≠ 0) && decide (v.stuckOff.toNat * Config.minute + 1 ≤ (advanceDetector v).gap)

/-- Entry to a stuck fault: DET_FAULT, and the standing call of a PRESENCE or PULSE detector (R119, R120, R123). -/
def enterStuck (d : DetectorNo) (st : DetectorState) (detail : Word) (s : State) : State :=
  let v := s.detector d
  setCalls v.mapped (submitDetector .detFault d detail (s.setDetector d { v with state := st }))

/-- One detector's part of the decisecond step (R119, R120). -/
def stepDetector (s : State) (d : DetectorNo) : State :=
  let v := s.detector d
  let t := s.setDetector d (advanceDetector v)
  if pastStuckOn v then enterStuck d .faultedOn 1 t
  else if pastStuckOff v then enterStuck d .faultedOff 2 t
  else t

/-- The detector unit's step of the present decisecond event, in ascending number (R120, R128). -/
def detectorStep (s : State) : State :=
  if s.parts.detectors then (List.finRange 48).foldl stepDetector { s with parts := { s.parts with detectors := false } } else s

/-- DETECTOR_STEP (R119, R120). -/
def execDetectorStep (s : State) : Host.Outcome State Fault Refusal := .next (detectorStep s)

/-- STUCK_ON (R119): the step in which the detector passes its stuck-on limit. -/
def execStuckOn (d : DetectorNo) (s : State) : Host.Outcome State Fault Refusal :=
  .next (if pastStuckOn (s.detector d) then detectorStep s else s)

/-- STUCK_OFF (R120): the step in which the detector passes its stuck-off limit. -/
def execStuckOff (d : DetectorNo) (s : State) : Host.Outcome State Fault Refusal :=
  .next (if pastStuckOff (s.detector d) then detectorStep s else s)

/-! ### Writes to a record (R126, R127) -/

/-- The calls a faulted detector holds on groups newly added to its mask are set at once (R123). -/
def addStandingCalls (d : DetectorNo) (old : Mask) (s : State) : State :=
  let v := s.detector d
  if v.faulted then setCalls (v.mapped &&& ~~~old) s else s

/-- A write of the kind: another kind resets the detector without an event; the same kind changes nothing (R126). -/
def writeKind (d : DetectorNo) (kind : DetectorKind) (s : State) : State :=
  let v := s.detector d
  if kind = v.kind then s
  else s.setDetector d { v with
    kind := kind, state := if kind = .off then .disabled else .free, level := false, run := 0, occupancy := 0, gap := 0
    accumulator := 0, total := 0 }

/-- The settings word at an offset 2 to 6 of the detector page (11.7). -/
def settingsWord (v : Detector) (offset : Nat) : Word :=
  if offset = 2 then wordOf v.onFilter.toNat v.offFilter.toNat
  else if offset = 3 then lowWord v.callMask
  else if offset = 4 then highWord v.callMask
  else if offset = 5 then v.prescale
  else wordOf v.stuckOn.toNat v.stuckOff.toNat

/-- A settings word written: the settings act at once, a prescale of 0 is stored as 1, and groups added to a faulted detector's mask are
called at once (R113, R123, R127). -/
def writeSettings (d : DetectorNo) (offset : Nat) (w : Word) (s : State) : State :=
  let v := s.detector d
  if offset = 2 then s.setDetector d { v with onFilter := lowByte w, offFilter := highByte w }
  else if offset = 3 then addStandingCalls d v.callMask (s.setDetector d { v with callMask := setMaskWord v.callMask false w })
  else if offset = 4 then addStandingCalls d v.callMask (s.setDetector d { v with callMask := setMaskWord v.callMask true w })
  else if offset = 5 then s.setDetector d { v with prescale := if w = 0 then 1 else w }
  else s.setDetector d { v with stuckOn := lowByte w, stuckOff := highByte w }

end Sys2Proof.Machine
end

