-- ==== Sys2Proof/Machine/Signs.lean ====
section
/-! DEFINITION. The sign link: FRAME_EVENT, CHANNEL_BYTE_START, REPLY_WINDOW_OPEN, GOOD_REPLY, REPLY_MISS and SIGN_SILENT, with the check (R137),
the byte format (R135) and the judgement of a reply (R139). -/

namespace Sys2Proof.Machine

open Sys2Proof

/-! ### Bytes and the check -/

/-- One bit into the check register: bit 15 and the data bit combined, a shift towards the high end, and 1021h combined in when the
combined bit was 1 (R137). -/
def crcBit (reg : Word) (b : Bool) : Word := (reg <<< 1) ^^^ (if reg.getLsbD 15 != b then 0x1021 else 0)

/-- One byte into the check register, "from its bit 7 to its bit 0" (R137). -/
def crcByte (reg : Word) (b : Byte) : Word := [7, 6, 5, 4, 3, 2, 1, 0].foldl (fun r k => crcBit r (b.getLsbD k)) reg

/-- The check of a sequence of bytes; the register starts at FFFFh (R137). -/
def crc (bytes : List Byte) : Word := bytes.foldl crcByte 0xFFFF

/-- The parity bit that makes the count of ones even over the eight data bits and itself (R135). -/
def parityBit (b : Byte) : Bool := [0, 1, 2, 3, 4, 5, 6, 7].foldl (fun p k => p != b.getLsbD k) false

/-- The eleven bits of a byte on the line, mark as `true`: start, data from the least significant bit, parity, stop (R135). -/
def byteBits (b : Byte) : List Bool := [false] ++ ([0, 1, 2, 3, 4, 5, 6, 7].map fun k => b.getLsbD k) ++ [parityBit b, true]

/-- "A received byte whose parity does not make the count of ones even, or whose stop bit is found at space level, is a byte error"
(R135). -/
def byteError (b : ReceivedByte) : Bool := b.parity != parityBit b.data || !b.stop

/-! ### Records, channels and polls -/

/-- The sign record in the active tables; no record is used while the device is UNCONFIGURED (R130). -/
def State.signRecord (s : State) (r : SignNo) : SignRecord := s.active.signs.get r

/-- The record is used (R130). -/
def State.signUsed (s : State) (r : SignNo) : Bool := s.store.nv.valid && (s.signRecord r).used

/-- The used records in ascending number. -/
def usedSigns (s : State) : List SignNo := (List.finRange 16).filter s.signUsed

/-- COUNT: "the largest start channel plus span among the used records" (R136). -/
def frameCount (s : State) : Nat :=
  (usedSigns s).foldl (fun n r => max n ((s.signRecord r).start.toNat + (s.signRecord r).span.toNat)) 0

/-- The binding condition holds: the bound group is in GO, or in STOP under SHOW_WHEN_STOP (R132). -/
def conditionHolds (s : State) (x : SignRecord) : Bool :=
  match x.boundGroup with
  | some g => decide ((s.group g).state = if x.whenStop then GroupState.stop else GroupState.go)
  | none => false

/-- The image value of a channel (R131). -/
def imageValue (s : State) (channel : Nat) : Byte := if h : channel < 128 then s.link.image.get ⟨channel, h⟩ else 0

/-- The value sent for a channel: the safe value in the span of a used record with a bound group whose condition does not hold, the image
value otherwise (R132, R133). -/
def channelValue (s : State) (channel : Nat) : Byte :=
  match (usedSigns s).find? fun r => (s.signRecord r).covers channel with
  | some r =>
    let x := s.signRecord r
    if x.bound = 0xFF then imageValue s channel
    else if conditionHolds s x then imageValue s channel else x.safe
  | none => imageValue s channel

/-- The smallest used address above `cursor`, if any. -/
def addressAbove (s : State) (cursor : Nat) : Option Nat :=
  (usedSigns s).foldl (fun best r =>
    let a := (s.signRecord r).address.toNat
    if cursor < a then (match best with
      | none => some a
      | some b => some (min a b)) else best) none

/-- The address a frame polls: the next used address above the cursor, or the smallest used one (R138). -/
def nextAddress (s : State) : Nat := ((addressAbove s s.link.cursor.toNat).or (addressAbove s 0)).getD 0

/-- The record that holds an address (R138). -/
def recordOf (s : State) (address : Byte) : Option SignNo := (usedSigns s).find? fun r => (s.signRecord r).address = address

/-! ### Outcomes of a poll -/

/-- The state of a sign record replaced. -/
def State.setSign (s : State) (r : SignNo) (x : Sign) : State :=
  { s with link := { s.link with signs := s.link.signs.set r x } }

/-- A sign record with the sign record number as subject (R140, R141, R142). -/
def submitSign (kind : EventKind) (r : SignNo) (detail : Word) (s : State) : State := submit kind (BitVec.ofNat 8 r.val) detail s

/-- The poll in flight ends, with its window (R138). -/
def endPoll (s : State) : State := { s with link := { s.link with poll := none, windowOpen := false } }

/-- The record of a poll still holds the polled address, and no commit has changed it meanwhile, were it changed back by another: otherwise
the outcome is discarded (R139, R145). -/
def pollStands (s : State) (p : Poll) : Bool :=
  !p.discarded && s.signUsed p.record && decide ((s.signRecord p.record).address = p.address)

/-- The sign becomes LIVE with its miss run at 0, and raises SIGN_LIVE unless it was LIVE (R140). -/
def signLives (p : Poll) (s : State) : State :=
  let x := s.link.signs.get p.record
  let t := s.setSign p.record { x with state := .live, missRun := 0 }
  if x.state = .live then t else submitSign .signLive p.record (p.address.setWidth 16) t

/-- The status flags are taken, with SIGN_STATUS where any differs (R142). -/
def takeStatus (p : Poll) (flags : SignStatus) (s : State) : State :=
  let x := s.link.signs.get p.record
  if x.status = flags then s
  else submitSign .signStatus p.record (signStatusDetail flags x.status) (s.setSign p.record { x with status := flags })

/-- The outcome of a good reply: SIGN_LIVE before SIGN_STATUS (R140). -/
def goodOutcome (p : Poll) (status : Byte) (s : State) : State :=
  if pollStands s p then endPoll (takeStatus p (statusOf status) (signLives p s)) else endPoll s

/-- The miss run after a miss (R141). -/
def nextMiss (x : Sign) : Nat := satAdd x.missRun Config.byteLimit

/-- The miss takes the sign to SILENT (R141). -/
def goesSilent (x : Sign) : Bool := decide (x.state ≠ .silent) && decide (Config.silentMisses ≤ nextMiss x)

/-- The outcome of a miss: the miss run advances, and at the third the sign becomes SILENT and raises SIGN_SILENT (R141). -/
def missOutcome (p : Poll) (s : State) : State :=
  if pollStands s p then
    let x := s.link.signs.get p.record
    if goesSilent x then
      submitSign .signSilent p.record (p.address.setWidth 16)
        (endPoll (s.setSign p.record { x with state := .silent, missRun := nextMiss x }))
    else endPoll (s.setSign p.record { x with missRun := nextMiss x })
  else endPoll s

/-- The reply window closes on a poll in flight without a good reply (R139). -/
def closeWindow (s : State) : State :=
  match s.link.poll with
  | some p => if s.link.windowOpen then missOutcome p s else s
  | none => s

/-! ### Frames -/

/-- The frame begins: LEAD, SEQ, POLL and COUNT are fixed, the sequence number advances modulo 256, and a polled address creates the poll
in flight (R136, R138). -/
def beginFrame (poll : Nat) (s : State) : State :=
  let a : Byte := BitVec.ofNat 8 poll
  { s with link := { s.link with
      sequence := s.link.sequence + 1
      cursor := if poll = 0 then s.link.cursor else a
      poll := (recordOf s a).map fun r => ⟨r, a, s.link.sequence, false⟩
      frame := some ⟨s.link.sequence, a, frameCount s⟩
      line := [0xC3, s.link.sequence, a, BitVec.ofNat 8 (frameCount s)]
      windowOpen := false } }

/-- The frame event of a decisecond event: a frame where a record is used, POLL 0 in the first frame event after a reset (R136, R138). A
poll whose window was never closed is ended as a miss first, since "the next frame event always finds it ended" (R138). -/
def frameEvent (s : State) : State :=
  let first := s.link.firstFrame
  let s := match s.link.poll with
    | some p => missOutcome p s
    | none => s
  let s := { s with link := { s.link with firstFrame := false } }
  if (usedSigns s).isEmpty then { s with link := { s.link with frame := none, line := [], windowOpen := false } }
  else beginFrame (if first then 0 else nextAddress s) s

/-- FRAME_EVENT (R136). -/
def execFrameEvent (s : State) : Host.Outcome State Fault Refusal :=
  .next (if s.parts.signs then frameEvent { s with parts := { s.parts with signs := false } } else s)

/-- The channel whose byte begins next: the bytes sent after LEAD, SEQ, POLL and COUNT. -/
def nextChannel (s : State) : Nat := s.link.line.length - 4

/-- Every part of the present decisecond event that can move a group has been taken: the sequencer's step, the evaluation, the mode
controller's timers and inputs, and the lamp sample with its declarations (R34, R38, R46, R64). -/
def EventParts.groupsMoved (p : EventParts) : Bool :=
  !(p.sequencer || p.arbiter || p.modeTimer || p.liveness || p.hold0 || p.hold1 || p.switch || p.lamps)

/-- A channel byte begins, decided at this moment from the tables, the group states and the image (R133, R134). It begins "at least four
byte times after its frame event", so that what moves a group at that decisecond event "is always seen": before those parts are taken no
channel byte begins (R134, notes/assumptions/40.md). -/
def channelByteStart (s : State) : State :=
  match s.link.frame with
  | some f =>
    if s.parts.groupsMoved = true ∧ nextChannel s < f.count then
      { s with link := { s.link with line := s.link.line ++ [channelValue s (nextChannel s)] } }
    else s
  | none => s

/-- CHANNEL_BYTE_START (R134): the next channel byte of the frame in progress. -/
def execChannelByteStart (s : State) : Host.Outcome State Fault Refusal := .next (channelByteStart s)

/-- The CHECK of the frame on the line, high byte first, over the bytes from SEQ to the last channel byte (R136, R137). -/
def checkBytes (line : List Byte) : List Byte := [highByte (crc (line.drop 1)), lowByte (crc (line.drop 1))]

/-- The last stop bit of CHECK ends: the pair is released, and the reply window of a polled address opens (R135, R139). The frame has taken
its time, so that no outcome is at the moment of the frame event (R143, notes/assumptions/41.md). -/
def openWindow (s : State) : State :=
  match s.link.frame with
  | some f =>
    if nextChannel s = f.count then
      { s with
        link := { s.link with
          line := s.link.line ++ checkBytes s.link.line
          frame := none
          windowOpen := s.link.poll.isSome }
        queue := s.queue.endMoment }
    else s
  | none => s

/-- REPLY_WINDOW_OPEN (R135). -/
def execReplyWindowOpen (s : State) : Host.Outcome State Fault Refusal := .next (openWindow s)

/-- The received bytes are a good reply to the poll (R139): begun within 3 ms, six bytes complete before the window closes and none in
error, with the right LEAD, ADDR, SEQ and CHECK. Bytes after the sixth are not looked at. -/
def replyGood (p : Poll) (r : Reply) : Bool :=
  let b := r.bytes.take 6
  let d : List Byte := b.map (·.data)
  decide (r.firstStart ≤ Config.replyStartLimit) && decide (r.sixthEnd < Config.replyWindow) && decide (b.length = 6) &&
    b.all (fun x => !byteError x) && decide (d.getD 0 0 = 0x3C) && decide (d.getD 1 0 = p.address) && decide (d.getD 2 0 = p.seq) &&
    decide (d.getD 4 0 ++ d.getD 5 0 = crc [d.getD 1 0, d.getD 2 0, d.getD 3 0])

/-- The STATUS byte of a reply (11.11). -/
def replyStatus (r : Reply) : Byte := (r.bytes.map (·.data)).getD 3 0

/-- A reply received in the open window: a good one ends the poll with its outcome; any other is left to the close of the window (R139,
R140). -/
def goodReply (r : Reply) (s : State) : State :=
  match s.link.poll with
  | some p => if s.link.windowOpen && replyGood p r then goodOutcome p (replyStatus r) s else s
  | none => s

/-- GOOD_REPLY (R140). -/
def execGoodReply (r : Reply) (s : State) : Host.Outcome State Fault Refusal := .next (goodReply r s)

/-- REPLY_MISS (R141): the open reply window closes without a good reply. -/
def execReplyMiss (s : State) : Host.Outcome State Fault Refusal := .next (closeWindow s)

/-- The close of the window takes the polled sign to SILENT (R141). -/
def silencing (s : State) : Bool :=
  match s.link.poll with
  | some p => s.link.windowOpen && pollStands s p && goesSilent (s.link.signs.get p.record)
  | none => false

/-- SIGN_SILENT (R141): the miss at which the polled sign becomes SILENT. -/
def execSignSilent (s : State) : Host.Outcome State Fault Refusal := .next (if silencing s then closeWindow s else s)

/-- The channel a write to an image word gives: channel 2w in the low byte, 2w + 1 in the high byte, where enabled (R81, R131, 11.9). -/
def imageChannel (s : State) (word : Nat) (w : Word) (e : ByteEnables) (c : Fin 128) : Byte :=
  if c.val = 2 * word ∧ e.low = true then lowByte w
  else if c.val = 2 * word + 1 ∧ e.high = true then highByte w
  else s.link.image.get c

/-- A write to an image word (R131). -/
def writeImage (word : Nat) (w : Word) (e : ByteEnables) (s : State) : State :=
  { s with link := { s.link with image := Vector.ofFn (imageChannel s word w e) } }

/-- A word of the sign image (11.9). -/
def imageWord (s : State) (word : Nat) : Word := wordOf (imageValue s (2 * word)).toNat (imageValue s (2 * word + 1)).toNat

end Sys2Proof.Machine
end

