-- ==== Sys2Proof/Machine/Store.lean ====
section
/-! DEFINITION. The table store: staging writes (R164), lock writes (R165, R166), commit requests (R168 to R170), completion (R172) and service
writes (R176). A write handed to it is answered accepted or refused with a reason, within the write (R77). -/

namespace Sys2Proof.Machine

open Sys2Proof

/-- An owning block's answer to a write: the state it leaves, and its reason if it refuses (R77). -/
structure Answer where
  state : State
  refusal : Option Reason

/-- The write is accepted. -/
def accept (s : State) : Answer := ⟨s, none⟩

/-- The write is refused, and leaves the owning block's state as it stands. -/
def refuse (reason : Reason) (s : State) : Answer := ⟨s, some reason⟩

/-- The filtered commissioning switch is closed (R59). -/
def State.switchClosed (s : State) : Bool := s.mode.switch.level

/-- The data of a write to a command word: a byte not enabled is taken as 0 (R81). -/
def takenData (w : BusWrite) : Word := mergeBytes 0 w.data w.enables

/-! ### Staging and locks -/

/-- A staging write: switch, commit in progress, lock, in this order; accepted, it updates its enabled bytes (R163, R164). -/
def writeStaging (offset : Nat) (w : BusWrite) (s : State) : Answer :=
  let p := stagingPlace offset
  if s.switchClosed = false then refuse .switchOpen s
  else if s.store.busy then refuse .busy s
  else if s.store.nv.lockFlags.getLsbD (sectionCode (placeSection p)) then refuse .locked s
  else accept { s with store := { s.store with
    staging := s.store.staging.setWord p (mergeBytes (s.store.staging.word p) w.data w.enables) } }

/-- The lock word: bits 0–6 the section lock flags, bit 15 the freeze (11.10). -/
def lockWord (nv : NonVolatile) : Word := nv.lockFlags.setWidth 16 ||| bitWord nv.freeze 15

/-- An accepted lock write: merged over the lock word, combined with it by OR, each newly locked section copied from active into staging,
and the freeze set where the written value has it (R165, R166). -/
def applyLock (w : BusWrite) (s : State) : State :=
  let written := mergeBytes (lockWord s.store.nv) w.data w.enables
  let flags := s.store.nv.lockFlags ||| written.setWidth 7
  { s with store := { s.store with
      nv := { s.store.nv with lockFlags := flags, freeze := s.store.nv.freeze || written.getLsbD 15 }
      staging := copySections (flags &&& ~~~s.store.nv.lockFlags) s.active s.store.staging } }

/-- A lock write: switch, configuration, freeze, commit in progress, in this order (R165). -/
def writeLock (w : BusWrite) (s : State) : Answer :=
  if s.switchClosed = false then refuse .switchOpen s
  else if s.store.nv.valid = false then refuse .unconfigured s
  else if s.store.nv.freeze then refuse .frozen s
  else if s.store.busy then refuse .busy s
  else accept (applyLock w s)

/-! ### Commit requests -/

/-- The commit result set (R174). -/
def setResult (r : CommitResult) (s : State) : State := { s with store := { s.store with result := r } }

/-- The COMMIT event of an outcome, its subject absent (R174). -/
def submitCommit (r : CommitResult) (s : State) : State := submit .commit Config.absent (commitDetail r) s

/-- The modes that take a commit request (R168). -/
def commitMode (m : Mode) : Bool := m = .startFlash || m = .flash || m = .dark

/-- The reason a commit request is refused at the outset: switch, commit in progress, mode, in this order (R168). -/
def commitRefusal (s : State) : Option Reason :=
  if s.switchClosed = false then some .switchOpen
  else if s.store.busy then some .busy
  else if commitMode s.mode.mode then none
  else some .mode

/-- The staging tables are equal to the active tables, every entry of every section; an UNCONFIGURED device has none (R170). -/
def stagingEqualsActive (s : State) : Bool := s.store.nv.valid && decide (s.store.staging = s.active)

/-- A request past the three checks: INVALID, UNCHANGED, or the start of a commit (R169, R170, R174). -/
def decideCommit (s : State) : State :=
  match s.store.staging.firstViolation with
  | some (code, sec, index) => submitCommit (.invalid code sec index) (setResult (.invalid code sec index) s)
  | none =>
    if stagingEqualsActive s then submitCommit .unchanged (setResult .unchanged s)
    else { s with store := { s.store with busy := true, result := .none } }

/-- A commit request (R168): refused at the outset, it sets the result to REFUSED with its reason. -/
def requestCommit (s : State) : Answer :=
  match commitRefusal s with
  | some reason => refuse reason (setResult (.refused reason) s)
  | none => accept (decideCommit s)

/-! ### Completion -/

/-- The active tables become the staging tables, the validity is set and COMMITS rises, in one unit; the state returns to IDLE with result
DONE (R172). -/
def storeNewTables (s : State) : State :=
  { s with store := { s.store with
      nv := { s.store.nv with
        active := s.store.staging, valid := true, commits := satAdd s.store.nv.commits Config.counterLimit }
      busy := false
      result := .done } }

/-- A group that ceases to be configured goes to UNLIT with the fixed values, with a GROUP_STATE record if it was not UNLIT (R4). -/
def unconfigureGroup (g : GroupNo) (s : State) : State :=
  let old := (s.group g).state
  let t := s.setGroup g Group.unconfigured
  if old = .unlit then t else submit .groupState (BitVec.ofNat 8 g.val) (groupDetail .unlit old) t

/-- A group that becomes configured takes the state of the mode, FLASHING or in DARK UNLIT, and records a stale request (R4, R50, R89). -/
def configureGroup (g : GroupNo) (s : State) : State :=
  let t := if s.mode.mode = .dark then s else orderGroup .flashing g s
  if s.goMask.getLsbD g.val then requestSet g t else t

/-- The group sequencer takes the new group count (R4); `was` says which groups were configured before. -/
def applyGroupCount (was : GroupNo → Bool) (s : State) : State :=
  (List.finRange 32).foldl (fun s g =>
    if was g then (if s.configured g then s else unconfigureGroup g s)
    else if s.configured g then configureGroup g s else s) s

/-- The call bits under the new group count (R125). -/
def applyCalls (was : GroupNo → Bool) (s : State) : State :=
  let kept := s.detectors.calls &&& maskOf fun g => was g && s.configured g
  { s with detectors := { s.detectors with calls := kept ||| (s.standing &&& ~~~maskOf was) } }

/-- A sign record keeps its state where it is used with the same address before and after, and where it is unused before and after
(R145). -/
def signKept (oldUsed newUsed : Bool) (old new : SignRecord) : Bool :=
  (oldUsed && newUsed && decide (old.address = new.address)) || (!oldUsed && !newUsed)

/-- From the active tables of `old` to those of `s` a sign record keeps its state (R145). -/
def keepsSign (old s : State) (r : SignNo) : Bool :=
  signKept (old.signUsed r) (s.signUsed r) (old.signRecord r) (s.signRecord r)

/-- A poll in flight over a completion: one whose record is changed has its outcome discarded (R145). -/
def pollAfter (old s : State) (p : Poll) : Poll := { p with discarded := p.discarded || !keepsSign old s p.record }

/-- The sign link keeps or resets each record's state, and discards the outcome of a poll whose record changes; `old` is the state before
completion (R145). -/
def applySigns (old s : State) : State :=
  { s with link := { s.link with
      signs := Vector.ofFn fun r : SignNo => (if keepsSign old s r then s.link.signs.get r else Sign.atReset)
      poll := s.link.poll.map (pollAfter old s) } }

/-- The mode controller acts on normal-pending at completion: in FLASH with the flag set, to ALL_STOP (R50). -/
def actOnPending (s : State) : State :=
  if s.mode.mode = .flash ∧ s.mode.normalPending = true then allStopEntry (setNormalPending false s) else s

/-- Completion (R172): the new tables, the blocks' changes, the COMMIT record, and the mode controller last; the records that the other blocks
submit "may stand before or after" the COMMIT record. -/
def completeCommit (s : State) : State :=
  let new := submitCommit .done (applySigns s (storeNewTables s))
  actOnPending (applyCalls s.configured (applyGroupCount s.configured new))

/-- COMMIT_COMPLETION (R172): the end of the commit in progress; with the commit state IDLE there is none to end. -/
def execCommitCompletion (s : State) : Host.Outcome State Fault Refusal := .next (if s.store.busy then completeCommit s else s)

/-! ### The service counter -/

/-- A service write: added to SERVICE, or refused with OVERFLOW where the sum is above 16,777,215 (R176). -/
def writeService (w : BusWrite) (s : State) : Answer :=
  let sum := s.store.nv.service + (takenData w).toNat
  if sum ≤ Config.counterLimit then accept { s with store := { s.store with nv := { s.store.nv with service := sum } } }
  else refuse .overflow s

end Sys2Proof.Machine
end

