-- ==== Sys2Proof/Machine/Operands.lean ====
section
/-! DEFINITION. What an access names: where an address lies (R70, R71), what kind of word an offset is and which level it asks for (R71, R75,
R79, R80), and the value every served word reads (11.4 to 11.10, R178, R179). -/

namespace Sys2Proof.Machine

open Sys2Proof

/-! ### Addresses -/

/-- The word address of an offset of an area page: the guarded area begins at S × 65,536 (R70). -/
def State.guardedAddress (s : State) (page offset : Nat) : Addr := BitVec.ofNat 20 (s.tap.strap.toNat * 65536 + page * 256 + offset)

/-- The address lies in the guarded area, its first 64 pages of the sixteenth that S names (R70). -/
def State.guarded (s : State) (a : Addr) : Bool :=
  decide (a.toNat / 65536 = s.tap.strap.toNat) && decide (a.toNat % 65536 < 16384)

/-- The area page of an address in the guarded area (R70). -/
def areaPage (a : Addr) : Nat := a.toNat % 65536 / 256

/-- The word offset of an address in its page (R70). -/
def wordOffset (a : Addr) : Nat := a.toNat % 256

/-! ### Served words -/

/-- What an offset of a served page is (R71). -/
inductive WordClass
  | unassigned
  | readOnly
  | stored
  | command
  deriving DecidableEq, Repr

/-- The staging offset of a word of area pages 8 to 11 (11.10). -/
def stagingOffset (page offset : Nat) : Nat := (page - 8) * 256 + offset

/-- The class of a word of a served page, from the layouts (R79, R80, R81; 11.4 to 11.10). -/
def wordClass (page offset : Nat) : WordClass :=
  if page = 1 then (if offset < 64 then .readOnly else .unassigned)
  else if page = 2 then (if offset < 181 ∨ (184 ≤ offset ∧ offset < 196) then .readOnly else .unassigned)
  else if page = 3 then
    (if offset < 7 then .stored else if 8 ≤ offset ∧ offset < 18 then .readOnly
     else if offset = 18 ∨ offset = 19 then .command else .unassigned)
  else if page = 4 then
    (if offset < 4 then .readOnly else if offset = 8 then .stored else if offset = 9 then .command else .unassigned)
  else if page = 5 then (if offset < 4 then .readOnly else .unassigned)
  else if page = 6 then (if offset < 64 then .stored else .unassigned)
  else if 8 ≤ page ∧ page ≤ 11 then (if stagingOffset page offset < 732 then .stored else .unassigned)
  else if page = 12 then
    (if offset = 1 then .stored else if 2 ≤ offset ∧ offset ≤ 4 then .readOnly
     else if offset = 0 ∨ offset = 5 then .command else .unassigned)
  else .unassigned

/-- The level area a read of a served page is checked against (R71). -/
def readArea (page : Nat) : LevelArea :=
  if page = 3 then .detectors else if page = 4 then .portA else if page = 5 then .portB else if page = 6 then .signImage else .views

/-- The level a write to a word of a served page requires: that of its level area, or 0 where it is fixed (R71, R75). -/
def writeLevel (s : State) (page offset : Nat) : Level :=
  if page = 3 then requiredLevel s.tap.levelMap .detectors
  else if page = 4 then requiredLevel s.tap.levelMap .portA
  else if page = 6 then requiredLevel s.tap.levelMap .signImage
  else if page = 12 ∧ offset = 5 then requiredLevel s.tap.levelMap .serviceCounter
  else 0

/-- "An access passes the level check … when its access level is at most that area's required level" (R75). -/
def levelPasses (access required : Level) : Bool := access ≤ required

/-- The offset a REFUSED record holds: "the word offset within the address area, 0 to 1,023" (R77). -/
def areaOffset (page offset : Nat) : Nat := if 8 ≤ page ∧ page ≤ 11 then stagingOffset page offset else offset

/-! ### What served words read -/

/-- A word of the lamp view (11.4). -/
def lampWord (s : State) (offset : Nat) : Word :=
  let g := groupNo (offset / 2)
  let x := s.group g
  if offset % 2 = 0 then
    BitVec.ofNat 16 (groupStateCode x.state + 256 * driveCode (s.drive g .stop) + 1024 * driveCode (s.drive g .clear) +
      4096 * driveCode (s.drive g .go)) ||| bitWord x.heldStop 4 ||| bitWord x.lateCancel 5
  else
    bitWord (s.lamps.raw.stop.getLsbD g.val) 0 ||| bitWord (s.lamps.raw.clear.getLsbD g.val) 1 |||
      bitWord (s.lamps.raw.go.getLsbD g.val) 2 ||| bitWord ((s.lamps.stretched .stop).getLsbD g.val) 4 |||
      bitWord ((s.lamps.stretched .clear).getLsbD g.val) 5 ||| bitWord ((s.lamps.stretched .go).getLsbD g.val) 6 |||
      bitWord (s.lamps.commandedGo.getLsbD g.val) 8 ||| bitWord (s.lamps.stopFailed.getLsbD g.val) 12 |||
      bitWord (s.lamps.clearFailed.getLsbD g.val) 13 ||| bitWord (s.lamps.goFailed.getLsbD g.val) 14

/-- The cause code of the last fault record; 0 for the empty record (11.5). -/
def faultCauseWord (r : FaultRecord) : Nat :=
  match r.cause with
  | some c => faultCauseCode c
  | none => 0

/-- A word of the status page that is one value for the whole device, offsets 160 to 195, but for the high words of two-word values,
which read their latches (11.5, R179). -/
def statusValue (s : State) (offset : Nat) : Word :=
  if offset = 160 then lowWord s.clock
  else if offset = 161 then s.latches.clock
  else if offset = 162 then wordOf (modeCode s.mode.mode) (causeCode s.mode.cause)
  else if offset = 163 then
    bitWord s.mode.normalPending 0 ||| bitWord s.mode.h0.level 1 ||| bitWord s.mode.h1.level 2 ||| bitWord s.mode.switch.level 3 |||
      bitWord (!s.store.nv.valid) 4 ||| BitVec.ofNat 16 (256 * s.tap.strap.toNat)
  else if offset = 164 then BitVec.ofNat 16 s.mode.startFlashTimer
  else if offset = 165 then BitVec.ofNat 16 s.mode.allStopTimer
  else if offset = 166 then BitVec.ofNat 16 s.mode.flashEntryTimer
  else if offset = 167 then BitVec.ofNat 16 s.page.liveness
  else if offset = 168 then lowWord s.arbiter.releasable
  else if offset = 169 then s.latches.releasable
  else if offset = 170 then s.arbiter.firstReleasable
  else if offset = 171 then s.page.word0.value
  else if offset = 172 then s.page.word1.value
  else if offset = 173 then s.page.word8.value
  else if offset = 174 then bitWord s.page.word0.written 0 ||| bitWord s.page.word1.written 1 ||| bitWord s.page.word8.written 2
  else if offset = 175 then BitVec.ofNat 16 s.page.refusals
  else if offset = 176 then s.tap.levelMap.setWidth 16
  else if offset = 177 then BitVec.ofNat 16 s.queue.held.length
  else if offset = 178 then BitVec.ofNat 16 s.queue.takenA
  else if offset = 179 then BitVec.ofNat 16 s.queue.takenB
  else if offset = 180 then wordOf s.queue.missed 0 ||| bitWord s.queue.enabledB 8
  else if offset = 184 then wordOf (faultCauseWord s.store.nv.lastFault) (modeCode s.store.nv.lastFault.mode)
  else if offset = 185 then wordOf s.store.nv.lastFault.first.toNat s.store.nv.lastFault.second.toNat
  else if offset = 186 then lowWord s.store.nv.lastFault.clock
  else if offset = 187 then s.latches.faultClock
  else if offset = 188 then BitVec.ofNat 16 s.store.nv.faultEntries
  else if offset = 189 then s.latches.faultEntries
  else if offset = 190 then BitVec.ofNat 16 s.store.nv.livenessLosses
  else if offset = 191 then s.latches.livenessLosses
  else if offset = 192 then BitVec.ofNat 16 s.store.nv.commits
  else if offset = 193 then s.latches.commits
  else if offset = 194 then BitVec.ofNat 16 s.store.nv.service
  else if offset = 195 then s.latches.service
  else 0

/-- A word of the status page (11.5). -/
def statusWord (s : State) (offset : Nat) : Word :=
  let g := groupNo (offset % 32)
  if offset < 32 then BitVec.ofNat 16 (s.group g).elapsed
  else if offset < 64 then BitVec.ofNat 16 (s.group g).age
  else if offset < 96 then BitVec.ofNat 16 (s.arbiter.waits.get g)
  else if offset < 128 then BitVec.ofNat 16 (s.group g).goTimer
  else if offset < 160 then wordOf (s.group g).prepareTimer (s.group g).clearingTimer
  else statusValue s offset

/-- The detector the select word names (R180). -/
def State.selected (s : State) : DetectorNo := ⟨s.detectors.select.toNat % 48, Nat.mod_lt _ (by decide)⟩

/-- A word of the detector page; offsets 1 to 15 are of the selected detector (11.7, R180). -/
def detectorWord (s : State) (offset : Nat) : Word :=
  let v := s.detector s.selected
  if offset = 0 then s.detectors.select
  else if offset = 1 then BitVec.ofNat 16 (detectorKindCode v.kind)
  else if offset < 7 then settingsWord v offset
  else if offset = 8 then
    wordOf ((if v.raw then 1 else 0) + (if v.level then 2 else 0) + 16 * detectorStateCode v.state) v.run
  else if offset = 9 then BitVec.ofNat 16 v.occupancy
  else if offset = 10 then s.latches.occupancy
  else if offset = 11 then BitVec.ofNat 16 v.gap
  else if offset = 12 then s.latches.gap
  else if offset = 13 then BitVec.ofNat 16 v.accumulator
  else if offset = 14 then lowWord v.total
  else if offset = 15 then s.latches.total
  else if offset = 16 then lowWord s.detectors.calls
  else if offset = 17 then highWord s.detectors.calls
  else 0

/-- A port word of a record (11.8). -/
def recordWord (r : Record) (offset : Nat) : Word :=
  if offset = 0 then wordOf (eventKindCode r.kind) r.missed
  else if offset = 1 then r.stamp
  else if offset = 2 then r.subject.setWidth 16
  else r.detail

/-- A port word of a reader: of its head record, or 0 for an empty view (R150). -/
def portWord (q : Queue) (reader : Reader) (offset : Nat) : Word :=
  match q.view reader with
  | r :: _ => recordWord r offset
  | [] => 0

/-- The commit result word (11.10). -/
def resultWord (r : CommitResult) : Word :=
  match r with
  | .refused reason => wordOf 1 (reasonCode reason)
  | .invalid code _ _ => wordOf 2 code
  | r => wordOf (resultCode r) 0

/-- Word 4 of the COMMIT page: index and section of an INVALID result (11.10). -/
def violationWord (r : CommitResult) : Word :=
  match r with
  | .invalid _ sec index => BitVec.ofNat 16 (index % 1024 + 4096 * sectionCode sec)
  | _ => 0

/-- A word of the COMMIT page; command words read 0 (11.10, R79). -/
def commitWord (s : State) (offset : Nat) : Word :=
  if offset = 1 then lockWord s.store.nv
  else if offset = 2 then bitWord s.store.busy 0
  else if offset = 3 then resultWord s.store.result
  else if offset = 4 then violationWord s.store.result
  else 0

/-- The value of an assigned word of a served page "as it stands when the read is taken" (R74); command words read 0 (R79). -/
def servedValue (s : State) (page offset : Nat) : Word :=
  if page = 1 then lampWord s offset
  else if page = 2 then statusWord s offset
  else if page = 3 then detectorWord s offset
  else if page = 4 then (if offset < 4 then portWord s.queue .a offset else if offset = 8 then bitWord s.queue.enabledB 0 else 0)
  else if page = 5 then portWord s.queue .b offset
  else if page = 6 then imageWord s offset
  else if 8 ≤ page ∧ page ≤ 11 then s.store.staging.word (stagingPlace (stagingOffset page offset))
  else if page = 12 then commitWord s offset
  else 0

/-- The latches after a read of a word: the low word of a two-word value copies its high half into the value's latch (R179). -/
def latchedBy (s : State) (page offset : Nat) : Latches :=
  let l := s.latches
  if page = 2 then
    (if offset = 160 then { l with clock := highWord s.clock }
     else if offset = 168 then { l with releasable := highWord s.arbiter.releasable }
     else if offset = 186 then { l with faultClock := highWord s.store.nv.lastFault.clock }
     else if offset = 188 then { l with faultEntries := BitVec.ofNat 16 (s.store.nv.faultEntries / 65536 % 256) }
     else if offset = 190 then { l with livenessLosses := BitVec.ofNat 16 (s.store.nv.livenessLosses / 65536 % 256) }
     else if offset = 192 then { l with commits := BitVec.ofNat 16 (s.store.nv.commits / 65536 % 256) }
     else if offset = 194 then { l with service := BitVec.ofNat 16 (s.store.nv.service / 65536 % 256) }
     else l)
  else if page = 3 then
    (let v := s.detector s.selected
     if offset = 9 then { l with occupancy := BitVec.ofNat 16 (v.occupancy / 65536) }
     else if offset = 11 then { l with gap := BitVec.ofNat 16 (v.gap / 65536) }
     else if offset = 14 then { l with total := highWord v.total }
     else l)
  else l

end Sys2Proof.Machine
end

