-- ==== Sys2Proof/Machine/Request.lean ====
section
/-! DEFINITION. The request page: GO-mask and alias writes (R87 to R90), the mode word (R49, R91, R92), read-back (R93 to R95), and the accepted
and refused writes (R96 to R98). -/

namespace Sys2Proof.Machine

open Sys2Proof

/-- Both bytes enabled. -/
def bothBytes : ByteEnables := ⟨true, true⟩

/-- A REFUSED record: the address area as subject; reason, access level and word offset in the detail (R77). -/
def submitRefused (page offset : Nat) (reason : Reason) (level : Level) (s : State) : State :=
  submit .refused (areaOfPage page) (refusedDetail reason level (areaOffset page offset)) s

/-! ### The mirror -/

/-- The mirror of base word 0, 1 or 8 (R84). -/
def RequestPage.mirror (p : RequestPage) (word : Nat) : MirrorWord :=
  if word = 0 then p.word0 else if word = 1 then p.word1 else p.word8

/-- A mirror word replaced. -/
def RequestPage.setMirror (p : RequestPage) (word : Nat) (m : MirrorWord) : RequestPage :=
  if word = 0 then { p with word0 := m } else if word = 1 then { p with word1 := m } else { p with word8 := m }

/-- A write forwarded to a base word with both bytes enabled: memory receives it and the mirror takes its data, with the written flag set
and the mismatch flag clear (R85). -/
def forwardWord (word : Nat) (v : Word) (s : State) : State :=
  { s with
    page := s.page.setMirror word ⟨v, true, false⟩
    bus := { s.bus with cycle := some ⟨true, s.guardedAddress 0 word, bothBytes, v⟩ } }

/-! ### Accepted and refused writes -/

/-- An accepted write sets the refusal count to 0 (R98) and restarts the liveness timer at 0 in ALL_STOP and NORMAL (R97). -/
def requestAccepted (s : State) : State :=
  { s with page := { s.page with
    refusals := 0
    liveness := if s.mode.mode.supervised then 0 else s.page.liveness } }

/-- The refusal count set. -/
def setRefusals (n : Nat) (s : State) : State := { s with page := { s.page with refusals := n } }

/-- The refusal count after one more refused write (R98). -/
def nextRefusals (s : State) : Nat := satAdd s.page.refusals Config.refusalCountLimit

/-- A refused write brings the count to the limit in ALL_STOP or NORMAL; a limit of 0 turns the trigger off (R55). -/
def limitReached (s : State) : Bool :=
  s.mode.mode.supervised && decide (s.active.timing.refusalLimit ≠ 0) && decide (s.active.timing.refusalLimit.toNat ≤ nextRefusals s)

/-- A refused write is counted, and at the limit the mode goes to TO_FLASH with cause REFUSALS and the count to 0 (R55, R98). -/
def countRefusal (s : State) : State :=
  if limitReached s then setRefusals 0 (toFlashEntry .refusals (setRefusals (nextRefusals s) s)) else setRefusals (nextRefusals s) s

/-- A refused write to a request-page word: the REFUSED record first, then the count (R86). -/
def requestRefused (word : Nat) (reason : Reason) (level : Level) (s : State) : State :=
  countRefusal (submitRefused 0 word reason level s)

/-! ### The GO mask -/

/-- The new word of a plain or an alias write before the clamp; bytes not enabled keep the mirror's, and are taken as 0 in an alias
(R87, R88). -/
def maskResult (word : Nat) (old : Word) (w : BusWrite) : Word :=
  if word < 2 then mergeBytes old w.data w.enables
  else if word < 4 then old ||| takenData w
  else if word < 6 then old &&& ~~~takenData w
  else old ^^^ takenData w

/-- The group-index clamp clears the bit of every unconfigured group (R89). -/
def clampWord (s : State) (word : Nat) (v : Word) : Word := v &&& maskWord s.configuredMask (word % 2 = 1)

/-- The changes of one write are handed to the group sequencer in ascending group number; in TO_FLASH it treats every request as clear,
so that no change reaches a group (R56, R90). The records of all kinds stand in that one order: R8 and R90 order each kind alone
(DESIGN CHOICE, notes/assumptions/32.md). -/
def handChanges (old : Mask) (s : State) : State :=
  if s.mode.mode = .toFlash then s
  else
    let new := s.goMask
    forGroups (fun g s =>
      if new.getLsbD g.val = old.getLsbD g.val then s
      else if new.getLsbD g.val then requestSet g s else requestCleared g s) s

/-- A GO-mask write that passed the level check, to word 0 to 7: merged, clamped, forwarded, handed on and accepted (R87, R88, R90). -/
def maskWrite (word : Nat) (w : BusWrite) (s : State) : State :=
  let base := word % 2
  let v := clampWord s word (maskResult word (s.page.mirror base).value w)
  requestAccepted (handChanges s.goMask (forwardWord base v s))

/-! ### The mode word -/

/-- The reason the mode controller refuses a mode-word value, 0 FLASH, 1 NORMAL, 2 DARK, by the mode in force (R49). -/
def modeRefusal (v : Nat) (s : State) : Option Reason :=
  match s.mode.mode with
  | .startFlash =>
    if v = 0 then none else if v = 1 then (if s.store.nv.valid then none else some .unconfigured) else some .mode
  | .allStop => if v = 2 then some .mode else none
  | .normal => if v = 2 then some .mode else none
  | .toFlash => if v = 1 then some .mode else none
  | .flash =>
    if v = 0 then none else if v = 1 then (if s.store.nv.valid then none else some .unconfigured)
    else if s.switchClosed then none else some .switchOpen
  | .dark => if v = 1 then some .mode else none
  | .faultFlash => none

/-- What the mode controller does with an accepted mode-word value (R49, R50, R51, R56, R60). -/
def modeAct (v : Nat) (s : State) : State :=
  match s.mode.mode with
  | .startFlash => if v = 0 then setNormalPending false s else setNormalPending true s
  | .allStop => if v = 0 then toFlashEntry .software s else s
  | .normal => if v = 0 then toFlashEntry .software s else s
  | .toFlash => s
  | .flash =>
    if v = 0 then setNormalPending false s
    else if v = 1 then (if s.store.busy then setNormalPending true s else allStopEntry s)
    else darkEntry s
  | .dark => if v = 0 then flashEntry .software s else s
  | .faultFlash => s

/-- A mode-word write that passed the level check: judged by value, then offered to the mode controller; forwarded with its value, or
refused and forwarded rewritten with the requested mode as it stood (R91, R92). -/
def modeWordWrite (w : BusWrite) (s : State) : State :=
  let old := s.page.word8.value
  let v := mergeBytes old w.data w.enables
  if 2 < v.toNat then requestRefused 8 .value w.level (forwardWord 8 old s)
  else
    match modeRefusal v.toNat s with
    | some reason => requestRefused 8 reason w.level (forwardWord 8 old s)
    | none => requestAccepted (modeAct v.toNat (forwardWord 8 v s))

/-- A write to word 0 to 8 of the request page, in the order of R86. -/
def requestWrite (word : Nat) (w : BusWrite) (s : State) : State :=
  if w.enables.any = false then s
  else if levelPasses w.level (requiredLevel s.tap.levelMap .request) = false then requestRefused word .level w.level s
  else if word < 8 then maskWrite word w s
  else modeWordWrite w s

/-! ### Read-back -/

/-- A read answered by the device with no memory cycle (R74, R83). -/
def answerRead (v : Word) (s : State) : State := { s with bus := ⟨some v, none⟩ }

/-- A read of a written base word, forwarded and compared with the mirror: the mirror stands on a difference, and the first difference
since the word was last written raises MIRROR_MISMATCH (R95). The memory cycle carries the processor's own byte enables: R73 and R95 say
only that the read is forwarded and that the whole word is compared (DESIGN CHOICE, notes/assumptions/33.md). -/
def comparedRead (word : Nat) (e : ByteEnables) (memory : Word) (s : State) : State :=
  let m := s.page.mirror word
  let cycle : MemoryCycle := ⟨false, s.guardedAddress 0 word, e, 0⟩
  if memory = m.value then { s with bus := ⟨some memory, some cycle⟩ }
  else
    let t := { s with bus := ⟨some m.value, some cycle⟩ }
    if m.mismatch then t
    else submit .mirrorMismatch (BitVec.ofNat 8 word) memory { t with page := t.page.setMirror word { m with mismatch := true } }

/-- A read of word 0 to 8 of the request page: 0 where the level check fails (R78), the base word's mirror for an alias (R93), the mirror
for a base word not written since reset (R94), and the comparison otherwise (R95). -/
def requestRead (word : Nat) (e : ByteEnables) (level : Level) (memory : Word) (s : State) : State :=
  if levelPasses level (requiredLevel s.tap.levelMap .request) = false then answerRead 0 s
  else if 2 ≤ word ∧ word < 8 then answerRead (s.page.mirror (word % 2)).value s
  else if (s.page.mirror word).written = false then answerRead (s.page.mirror word).value s
  else comparedRead word e memory s

end Sys2Proof.Machine
end

