-- ==== Sys2Proof/Machine/BusTap.lean ====
section
/-! DEFINITION. The bus tap: classification (R69 to R72), served reads and writes (R74 to R81) and the bypass during reset (R82), and the
commands that are accesses. A command of an access names its word by area page and offset; its row's name never overrides what the
device does with the access. -/

namespace Sys2Proof.Machine

open Sys2Proof

/-! ### Served words -/

/-- A write to the detector page that passed its checks (R113, R124, R126, R127, R180). -/
def detectorPageWrite (offset : Nat) (w : BusWrite) (s : State) : Answer :=
  let d := s.selected
  let v := s.detector d
  if offset = 0 then
    (let x := mergeBytes s.detectors.select w.data w.enables
     if 47 < x.toNat then refuse .value s else accept { s with detectors := { s.detectors with select := x } })
  else if offset = 1 then
    accept (writeKind d (detectorKindOf ((mergeBytes (BitVec.ofNat 16 (detectorKindCode v.kind)) w.data w.enables).setWidth 2)) s)
  else if offset < 7 then accept (writeSettings d offset (mergeBytes (settingsWord v offset) w.data w.enables) s)
  else if offset = 18 then accept (clearCalls (joinWords (takenData w) 0) s)
  else accept (clearCalls (joinWords 0 (takenData w)) s)

/-- A write to the COMMIT page that passed its checks (R165, R168, R176). -/
def commitPageWrite (offset : Nat) (w : BusWrite) (s : State) : Answer :=
  if offset = 0 then requestCommit s else if offset = 1 then writeLock w s else writeService w s

/-- The owning block's answer to a served write (R74). -/
def ownerWrite (page offset : Nat) (w : BusWrite) (s : State) : Answer :=
  if page = 3 then detectorPageWrite offset w s
  else if page = 4 then (if offset = 8 then accept (writeControl w s) else accept (submitTimeMark s))
  else if page = 6 then accept (writeImage offset w.data w.enables s)
  else if page = 12 then commitPageWrite offset w s
  else writeStaging (stagingOffset page offset) w s

/-- The outcome of an owning block's answer: a refusal at check 3 submits its REFUSED record (R77). -/
def settle (page offset : Nat) (level : Level) (a : Answer) : State :=
  match a.refusal with
  | none => a.state
  | some reason => submitRefused page offset reason level a.state

/-- A write to a word of a served page: dropped with no byte enabled (R81) or unassigned (R80); read-only, level and owning block in this
order (R77). -/
def servedWrite (page offset : Nat) (w : BusWrite) (s : State) : State :=
  if w.enables.any = false then s
  else
    match wordClass page offset with
    | .unassigned => s
    | .readOnly => submitRefused page offset .readOnly w.level s
    | _ =>
      if levelPasses w.level (writeLevel s page offset) then settle page offset w.level (ownerWrite page offset w s)
      else submitRefused page offset .level w.level s

/-- The words that show the held records and their counts: the status page's words of the queue (11.5) and port words 0 to 2 (R150). -/
def showsQueue (page offset : Nat) : Bool :=
  (decide (page = 2) && decide (177 ≤ offset) && decide (offset ≤ 180)) ||
  ((decide (page = 4) || decide (page = 5)) && decide (offset < 3))

/-- A read of a served word that passed its level check: its value, and what the read does besides: a take by the last port word (R150),
a latch by the low word of a two-word value (R179). What the processor has seen of the queue stands (notes/assumptions/41.md). -/
def readWord (page offset : Nat) (s : State) : State :=
  let t := answerRead (servedValue s page offset) { s with latches := latchedBy s page offset }
  if page = 4 ∧ offset = 3 then takeRecord .a t
  else if page = 5 ∧ offset = 3 then takeRecord .b t
  else if showsQueue page offset then { t with queue := t.queue.settled }
  else t

/-- A read of a word of a served page: 0 for an unassigned word (R80) and where the level check fails (R78). -/
def servedRead (page offset : Nat) (level : Level) (s : State) : State :=
  if wordClass page offset = .unassigned then answerRead 0 s
  else if levelPasses level (requiredLevel s.tap.levelMap (readArea page)) = false then answerRead 0 s
  else readWord page offset s

/-! ### Accesses -/

/-- An access forwarded to memory unchanged; a read returns what memory returns (R72). -/
def passWrite (a : Addr) (w : BusWrite) (s : State) : State := { s with bus := ⟨none, some ⟨true, a, w.enables, w.data⟩⟩ }

/-- A read forwarded to memory unchanged (R72). -/
def passRead (a : Addr) (e : ByteEnables) (memory : Word) (s : State) : State := { s with bus := ⟨some memory, some ⟨false, a, e, 0⟩⟩ }

/-- An access forwarded to memory unchanged, by its strobes: both asserted make a write (R69, R72). -/
def passAccess (a : Access) (s : State) : State :=
  if a.writeStrobe then passWrite a.addr ⟨a.data, a.enables, a.level⟩ s
  else if a.readStrobe then passRead a.addr a.enables a.memory s
  else s

/-- An access that the device does not pass begins: nothing is driven for the processor and no memory cycle made yet, and it is at a moment
of its own among accesses (notes/assumptions/41.md). -/
def beginAccess (s : State) : State := { s with queue := s.queue.atAccess, bus := ⟨none, none⟩ }

/-- An access taken before the newest `later` submissions of the present moment, which are then taken in their order (R151, R152, R153); with
an access already taken at this moment none of them can follow this one. -/
def partWay (later : Nat) (access : State → State) (s : State) : State :=
  match if s.held || s.queue.accessed then 0 else min later s.queue.moment.length with
  | 0 => access s
  | n + 1 =>
    let t := access { s with queue := s.queue.rewind (n + 1) }
    { t with queue := (s.queue.late (n + 1)).foldl Queue.store t.queue }

/-- A write inside the guarded area, by its area page and offset (R71); a PASSED one changes no state (R72). -/
def guardedWrite (page offset : Nat) (w : BusWrite) (s : State) : State :=
  if page = 0 ∧ offset < 9 then requestWrite offset w (beginAccess s)
  else if servedPage page then servedWrite page offset w (beginAccess s)
  else passWrite (s.guardedAddress page offset) w s

/-- A read inside the guarded area, by its area page and offset (R71); a PASSED one changes no state (R72). -/
def guardedRead (page offset : Nat) (e : ByteEnables) (level : Level) (memory : Word) (s : State) : State :=
  if page = 0 ∧ offset < 9 then requestRead offset e level memory (beginAccess s)
  else if servedPage page then servedRead page offset level (beginAccess s)
  else passRead (s.guardedAddress page offset) e memory s

/-- A processor write to a word named by area page and offset. While a reset is held it is PASSED (R82): no base is in use then (R70), and
the address is formed from the strap value last latched (DESIGN CHOICE, notes/assumptions/34.md). -/
def busWrite (page offset : Nat) (w : BusWrite) (s : State) : State :=
  if s.held then passWrite (s.guardedAddress page offset) w s else guardedWrite page offset w s

/-- A processor read of a word named by area page and offset. While a reset is held it is PASSED (R82), at an address formed from the strap
value last latched (DESIGN CHOICE, notes/assumptions/34.md). -/
def busRead (page offset : Nat) (e : ByteEnables) (level : Level) (memory : Word) (s : State) : State :=
  if s.held then passRead (s.guardedAddress page offset) e memory s else guardedRead page offset e level memory s

/-- Any processor access, by its address: PASSED while a reset is held and outside the guarded area; both strobes asserted make a write
(R69, R71, R72, R82). -/
def busAccess (a : Access) (s : State) : State :=
  if a.writeStrobe then
    (if s.held || !s.guarded a.addr then passWrite a.addr ⟨a.data, a.enables, a.level⟩ s
     else guardedWrite (areaPage a.addr) (wordOffset a.addr) ⟨a.data, a.enables, a.level⟩ s)
  else if a.readStrobe then
    (if s.held || !s.guarded a.addr then passRead a.addr a.enables a.memory s
     else guardedRead (areaPage a.addr) (wordOffset a.addr) a.enables a.level a.memory s)
  else s

/-! ### Commands -/

/-- PASSED_ACCESS (R72): an access by its address, forwarded unchanged where R71 and R82 pass it; an access the device treats otherwise
is treated so. -/
def execPassedAccess (a : Access) (s : State) : Host.Outcome State Fault Refusal := .next (busAccess a s)

/-- GO_MASK_WRITE (R87): a plain write to word 0 or 1. -/
def execGoMaskWrite (word : Fin 2) (w : BusWrite) (s : State) : Host.Outcome State Fault Refusal := .next (busWrite 0 word.val w s)

/-- SET_ALIAS (R88): a write to word 2 or 3. -/
def execSetAlias (word : Fin 2) (w : BusWrite) (s : State) : Host.Outcome State Fault Refusal := .next (busWrite 0 (2 + word.val) w s)

/-- CLEAR_ALIAS (R88): a write to word 4 or 5. -/
def execClearAlias (word : Fin 2) (w : BusWrite) (s : State) : Host.Outcome State Fault Refusal := .next (busWrite 0 (4 + word.val) w s)

/-- TOGGLE_ALIAS (R88): a write to word 6 or 7. -/
def execToggleAlias (word : Fin 2) (w : BusWrite) (s : State) : Host.Outcome State Fault Refusal := .next (busWrite 0 (6 + word.val) w s)

/-- MODE_WORD_FLASH (R49): a write of 0 to the mode word. With the high byte alone enabled the merged value is the requested mode, "and is
offered to the mode controller like any write of that value" (R91). -/
def execModeWordFlash (e : ByteEnables) (level : Level) (s : State) : Host.Outcome State Fault Refusal :=
  .next (busWrite 0 8 ⟨0, e, level⟩ s)

/-- MODE_WORD_NORMAL (R49): a write of 1 to the mode word. -/
def execModeWordNormal (e : ByteEnables) (level : Level) (s : State) : Host.Outcome State Fault Refusal :=
  .next (busWrite 0 8 ⟨1, e, level⟩ s)

/-- MODE_WORD_DARK (R49): a write of 2 to the mode word. -/
def execModeWordDark (e : ByteEnables) (level : Level) (s : State) : Host.Outcome State Fault Refusal :=
  .next (busWrite 0 8 ⟨2, e, level⟩ s)

/-- MODE_WORD_VALUE_REFUSED (R91): a write of any data to the mode word, refused with VALUE where the merged value is above 2. -/
def execModeWordValueRefused (w : BusWrite) (s : State) : Host.Outcome State Fault Refusal := .next (busWrite 0 8 w s)

/-- The write is refused with a reason, and with it the refusal count reaches the limit (R55, R77, R96). -/
def writeReachesLimit (word : Nat) (w : BusWrite) (s : State) : Bool :=
  let v := mergeBytes s.page.word8.value w.data w.enables
  !s.held && w.enables.any && limitReached s &&
    (!levelPasses w.level (requiredLevel s.tap.levelMap .request) ||
      (decide (word = 8) && (decide (2 < v.toNat) || (modeRefusal v.toNat s).isSome)))

/-- REFUSAL_LIMIT_REACHED (R55): the refused request-page write that brings the refusal count to the limit in ALL_STOP or NORMAL. -/
def execRefusalLimitReached (word : Fin 9) (w : BusWrite) (s : State) : Host.Outcome State Fault Refusal :=
  .next (if writeReachesLimit word.val w s then busWrite 0 word.val w s else s)

/-- REQUEST_BASE_READ (R95): a read of a word of the request page. -/
def execRequestBaseRead (word : Fin 9) (e : ByteEnables) (level : Level) (memory : Word) (s : State) :
    Host.Outcome State Fault Refusal := .next (busRead 0 word.val e level memory s)

/-- The page of a reader's port words (R150). -/
def portPage : Reader → Nat
  | .a => 4
  | .b => 5

/-- TAKE (R151): a read of a reader's last port word, which can fall part-way through the submissions of a moment. -/
def execTake (r : TakingRead) (e : ByteEnables) (level : Level) (memory : Word) (s : State) : Host.Outcome State Fault Refusal :=
  .next (partWay r.later (busRead (portPage r.reader) 3 e level memory) s)

/-- LOW_WORD_READ (R179): a read of a served word, which latches the high half where the word is the low word of a two-word value. A read of
a served page can fall part-way through the submissions of a moment, each of them an event of its own (R148). -/
def execLowWordRead (page : Fin 64) (offset : Fin 256) (e : PlacedEnables) (level : Level) (memory : Word) (s : State) :
    Host.Outcome State Fault Refusal :=
  let later := if servedPage page.val then e.later else 0
  .next (partWay later (busRead page.val offset.val e.enables level memory) s)

/-- ENABLE_READER_B (R152): a write to the control word with the enable set in its data, which can fall part-way through the submissions of a
moment. -/
def execEnableReaderB (w : ControlWrite) (s : State) : Host.Outcome State Fault Refusal :=
  .next (partWay w.later (busWrite 4 8 { w.write with data := w.write.data ||| 1 }) s)

/-- DISABLE_READER_B (R153): a write to the control word with the enable clear in its data, which can fall part-way likewise. -/
def execDisableReaderB (w : ControlWrite) (s : State) : Host.Outcome State Fault Refusal :=
  .next (partWay w.later (busWrite 4 8 { w.write with data := w.write.data &&& 0xFFFE }) s)

/-- TIME_MARK_WORD_WRITE (R157). -/
def execTimeMarkWordWrite (w : BusWrite) (s : State) : Host.Outcome State Fault Refusal := .next (busWrite 4 9 w s)

/-- DETECTOR_SELECT_WRITE (R180). -/
def execDetectorSelectWrite (w : BusWrite) (s : State) : Host.Outcome State Fault Refusal := .next (busWrite 3 0 w s)

/-- DETECTOR_KIND_WRITE (R126). -/
def execDetectorKindWrite (w : BusWrite) (s : State) : Host.Outcome State Fault Refusal := .next (busWrite 3 1 w s)

/-- DETECTOR_SETTINGS_WRITE (R127): a write to offset 2 to 6 of the detector page. -/
def execDetectorSettingsWrite (setting : Fin 5) (w : BusWrite) (s : State) : Host.Outcome State Fault Refusal :=
  .next (busWrite 3 (2 + setting.val) w s)

/-- CALL_CLEAR_ALIAS (R124): a write to offset 18 or 19 of the detector page. -/
def execCallClearAlias (word : Fin 2) (w : BusWrite) (s : State) : Host.Outcome State Fault Refusal :=
  .next (busWrite 3 (18 + word.val) w s)

/-- SIGN_IMAGE_WRITE (R131). -/
def execSignImageWrite (word : Fin 64) (w : BusWrite) (s : State) : Host.Outcome State Fault Refusal := .next (busWrite 6 word.val w s)

/-- STAGING_WRITE (R164): "Offset k lies in page 8 + k / 256 at word k modulo 256" (11.10). -/
def execStagingWrite (offset : Fin 1024) (w : BusWrite) (s : State) : Host.Outcome State Fault Refusal :=
  .next (busWrite (8 + offset.val / 256) (offset.val % 256) w s)

/-- LOCK_WRITE (R165). -/
def execLockWrite (w : BusWrite) (s : State) : Host.Outcome State Fault Refusal := .next (busWrite 12 1 w s)

/-- LOCK_FREEZE (R166): a lock write with the freeze set in its data. -/
def execLockFreeze (w : BusWrite) (s : State) : Host.Outcome State Fault Refusal :=
  .next (busWrite 12 1 { w with data := w.data ||| 0x8000 } s)

/-- COMMIT_REQUEST (R168). -/
def execCommitRequest (w : BusWrite) (s : State) : Host.Outcome State Fault Refusal := .next (busWrite 12 0 w s)

/-- SERVICE_WRITE (R176). -/
def execServiceWrite (w : BusWrite) (s : State) : Host.Outcome State Fault Refusal := .next (busWrite 12 5 w s)

/-- SERVED_WRITE (R77): a write to a word named by area page and offset. -/
def execServedWrite (page : Fin 64) (offset : Fin 256) (w : BusWrite) (s : State) : Host.Outcome State Fault Refusal :=
  .next (busWrite page.val offset.val w s)

end Sys2Proof.Machine
end

