-- ==== Sys2Proof/Machine/Groups.lean ====
section
/-! DEFINITION. The decisecond clock (R1) and the group sequencer: DECISECOND_EVENT, GROUP_SEQUENCER_STEP, PREPARE_EXPIRY, GO_TIMER_REACHES_MG
and CLEARING_EXPIRY. The sequencer's step is one event with all its expiries (R10, R34): an expiry's command is that step, in the
case that the named group's timer expires in it. -/

namespace Sys2Proof.Machine

open Sys2Proof

/-- The advance of the clock, modulo 2^32 (R1): every block's part of the event is now to be taken, flashing lines take the flasher's new
value (R2), and a GO line then driven on marks the sample interval (R102). A new moment begins (notes/assumptions/41.md). -/
def advanceClock (s : State) : State :=
  let s := { s with clock := s.clock + 1, parts := EventParts.due, queue := s.queue.endMoment }
  { s with lamps := { s.lamps with goMark := s.lamps.goMark ||| s.goLinesOn } }

/-- DECISECOND_EVENT (R1): while a reset is held the clock stands at 0. -/
def execDecisecondEvent (s : State) : Host.Outcome State Fault Refusal := .next (if s.held then s else advanceClock s)

/-- E at this event: it advances by 1, saturating, unless an order of this event set it (R11, R46). -/
def nextElapsed (p : EventParts) (g : GroupNo) (x : Group) : Nat :=
  if p.heldElapsed.getLsbD g.val then x.elapsed else satAdd x.elapsed Config.wordLimit

/-- The request age at this event: it advances while the group is pending, unless the group became pending in this event (R12). So a request
set after an evaluation has age 1 at the next one where the step of that event is taken first, and age 0 where the evaluation is; R29 says
"with request age 0" without naming the order, and the model follows R12 and R36 (DEDUCED, notes/assumptions/42.md). -/
def nextAge (p : EventParts) (g : GroupNo) (isPending : Bool) (x : Group) : Nat :=
  if isPending then (if p.heldAges.getLsbD g.val then x.age else satAdd x.age Config.wordLimit) else 0

/-- E and the request age of a group after this event (R11, R12). -/
def advanceCounts (p : EventParts) (g : GroupNo) (s : State) : State :=
  let x := s.group g
  s.setGroup g { x with elapsed := nextElapsed p g x, age := nextAge p g (s.isPending g) x }

/-- The advance of the timer of the group's state (R10); a timer that a grant or an order of this event started stays (R35, R46). -/
def advanceTimer (x : Group) : Group :=
  match x.state with
  | .prepare => { x with prepareTimer := x.prepareTimer + 1 }
  | .go => { x with goTimer := satAdd x.goTimer Config.wordLimit }
  | .clearing => { x with clearingTimer := x.clearingTimer + 1 }
  | _ => x

/-- The expiry rule of the group's state: PREPARE at P (R16), GO at MG with the stop held (R18), CLEARING at CL (R20). -/
def expireTimer (g : GroupNo) (s : State) : State :=
  match (s.group g).state with
  | .prepare => if s.prepareTime g ≤ (s.group g).prepareTimer then enterGo g s else s
  | .go => if s.minimumGo g ≤ (s.group g).goTimer ∧ (s.group g).heldStop = true then enterClearing g s else s
  | .clearing => if s.clearingTime g ≤ (s.group g).clearingTimer then enterStop g none s else s
  | _ => s

/-- One group's part of the step: E and age, then the timer and its expiry (R10). -/
def stepGroup (p : EventParts) (g : GroupNo) (s : State) : State :=
  let s := advanceCounts p g s
  if p.heldTimers.getLsbD g.val then s else expireTimer g (s.setGroup g (advanceTimer (s.group g)))

/-- The sequencer's step of the present decisecond event (R10, R34); without one due it is no event. -/
def sequencerStep (s : State) : State :=
  if s.parts.sequencer then
    forGroups (stepGroup s.parts)
      { s with parts := { s.parts with sequencer := false, heldTimers := 0, heldElapsed := 0, heldAges := 0 } }
  else s

/-- GROUP_SEQUENCER_STEP (R10, R11, R12, R34, R35). -/
def execGroupSequencerStep (s : State) : Host.Outcome State Fault Refusal := .next (sequencerStep s)

/-- The step due advances the timer of this group's state. -/
def State.timerAdvances (s : State) (g : GroupNo) (st : GroupState) : Bool :=
  s.parts.sequencer && s.configured g && decide ((s.group g).state = st) && !s.parts.heldTimers.getLsbD g.val

/-- The step due brings the group's prepare-timer to P (R16). -/
def prepareExpires (g : GroupNo) (s : State) : Bool :=
  s.timerAdvances g .prepare && decide (s.prepareTime g ≤ (s.group g).prepareTimer + 1)

/-- PREPARE_EXPIRY (R16): the sequencer's step in which the group's prepare-timer reaches P. -/
def execPrepareExpiry (g : GroupNo) (s : State) : Host.Outcome State Fault Refusal :=
  .next (if prepareExpires g s then sequencerStep s else s)

/-- The step due brings the group's go-timer to MG, or finds it there, with the held-stop flag set (R18). -/
def heldStopExpires (g : GroupNo) (s : State) : Bool :=
  s.timerAdvances g .go && (s.group g).heldStop && decide (s.minimumGo g ≤ satAdd (s.group g).goTimer Config.wordLimit)

/-- GO_TIMER_REACHES_MG (R18): the sequencer's step in which the group with its stop held reaches MG. -/
def execGoTimerReachesMg (g : GroupNo) (s : State) : Host.Outcome State Fault Refusal :=
  .next (if heldStopExpires g s then sequencerStep s else s)

/-- The step due brings the group's clearing-timer to CL (R20). -/
def clearingExpires (g : GroupNo) (s : State) : Bool :=
  s.timerAdvances g .clearing && decide (s.clearingTime g ≤ (s.group g).clearingTimer + 1)

/-- CLEARING_EXPIRY (R20): the sequencer's step in which the group's clearing-timer reaches CL. -/
def execClearingExpiry (g : GroupNo) (s : State) : Host.Outcome State Fault Refusal :=
  .next (if clearingExpires g s then sequencerStep s else s)

end Sys2Proof.Machine
end

