-- ==== Sys2Proof/Machine/Lamps.lean ====
section
/-! DEFINITION. The lamp monitor: LAMP_SAMPLE, and CONFLICT, UNCOMMANDED_GO, RED_OUT and LAMP_FAIL (chapter 6). A sample is one event with all
its checks made on one reading (R110): the command of a declaration or a report is that sample, in the case that it holds the
declaration or the report. -/

namespace Sys2Proof.Machine

open Sys2Proof

/-- The sample enters the windows: the newest six samples are kept, and the running interval closes with its marks (R101, R102). -/
def takeSample (x : SenseSample) (s : State) : State :=
  { s with lamps := { s.lamps with
      samples := (x :: s.lamps.samples).take Config.senseWindow
      goIntervals := (s.lamps.goMark :: s.lamps.goIntervals).take Config.senseWindow
      goMark := 0 } }

/-- The next interval begins once the sample is taken whole, marked for each GO line then on: a line that the sample's own fault entry turned
off leaves no mark in it (R102, R111; notes/assumptions/16.md). -/
def openInterval (s : State) : State := { s with lamps := { s.lamps with goMark := s.goLinesOn } }

/-- PD in deciseconds (R103). -/
def provingDelay (s : State) : Nat := s.active.timing.provingDelay.toNat

/-- The group is configured and has proving ON. -/
def proved (s : State) (g : GroupNo) : Bool := s.configured g && (s.record g).proving

/-- The mode is ALL_STOP, NORMAL or TO_FLASH, in which the lamp-out checks are made (R107, R108). -/
def lampOutMode (s : State) : Bool := decide (s.mode.mode = .allStop) || s.holdsAct

/-- The stretched sense of a group's line (R101). -/
def stretchedOn (s : State) (g : GroupNo) (line : Line) : Bool := (s.lamps.stretched line).getLsbD g.val

/-- The CONFLICT check of a pair j less than i applies (R105). -/
def conflictApplies (s : State) (j i : GroupNo) : Bool := decide (j < i) && proved s j && proved s i && s.active.conflictBit j i

/-- The CONFLICT check applies and finds its discrepancy (R105). -/
def conflictFound (s : State) (j i : GroupNo) : Bool := conflictApplies s j i && stretchedOn s j .go && stretchedOn s i .go

/-- The UNCOMMANDED_GO check applies and finds its discrepancy (R106). -/
def uncommandedFound (s : State) (g : GroupNo) : Bool :=
  proved s g && stretchedOn s g .go && !s.lamps.commandedGo.getLsbD g.val

/-- A lamp-out check applies, the line driven steady, and finds the stretched sense off (R107, R108). -/
def lampOutFound (s : State) (g : GroupNo) (line : Line) : Bool :=
  proved s g && lampOutMode s && decide (s.drive g line = .steady) && !stretchedOn s g line

/-- A run's count after a sample: it advances by 1, saturating at 255, where the discrepancy is found, and is 0 otherwise (R103). -/
def nextCount (found : Bool) (n : Nat) : Nat := if found then satAdd n Config.byteLimit else 0

/-- A run with its declared mark after a sample: the mark is set where the run acts, and cleared with the run (R104). -/
def nextRun (found acts : Bool) (pd : Nat) (r : Run) : Run :=
  let n := nextCount found r.count
  ⟨n, found && (r.mark || (acts && decide (pd ≤ n)))⟩

/-- The run acts at this sample: at least PD, with its mark clear (R104). -/
def declares (found : Bool) (pd : Nat) (r : Run) : Bool :=
  found && decide (pd ≤ nextCount found r.count) && !r.mark

/-- The CONFLICT run of a pair. -/
def conflictRun (s : State) (j i : GroupNo) : Run := (s.lamps.conflictRuns.get j).get i

/-- CONFLICT is declared for the pair at this sample (R105). -/
def conflictDeclared (s : State) (j i : GroupNo) : Bool := declares (conflictFound s j i) (provingDelay s) (conflictRun s j i)

/-- UNCOMMANDED_GO is declared for the group at this sample (R106). -/
def uncommandedDeclared (s : State) (g : GroupNo) : Bool :=
  declares (uncommandedFound s g) (provingDelay s) (s.lamps.uncommandedRuns.get g)

/-- RED_OUT is declared for the group at this sample: red redundant NO (R107). -/
def redOutDeclared (s : State) (g : GroupNo) : Bool :=
  !(s.record g).redundant && declares (lampOutFound s g .stop) (provingDelay s) (s.lamps.stopOutRuns.get g)

/-- The lamp-out run of a line after this sample. -/
def lampOutCount (s : State) (g : GroupNo) (line : Line) : Nat :=
  nextCount (lampOutFound s g line)
    (match line with
     | .stop => (s.lamps.stopOutRuns.get g).count
     | .clear => s.lamps.clearOutRuns.get g
     | .go => s.lamps.goOutRuns.get g)

/-- A LAMP_FAIL is due for the line: the run is at least PD, and for STOP the red is redundant (R107, R108, R109). -/
def lampFailing (s : State) (g : GroupNo) (line : Line) : Bool :=
  lampOutFound s g line && decide (provingDelay s ≤ lampOutCount s g line) &&
    (decide (line ≠ .stop) || (s.record g).redundant)

/-- The lamp-fail reported flags of a line. -/
def LampMonitor.failed (l : LampMonitor) : Line → Mask
  | .stop => l.stopFailed
  | .clear => l.clearFailed
  | .go => l.goFailed

/-- The reported flags that stand when the sample reports: cleared by a raw sample that is on, and for every group that is unconfigured
or has proving OFF (R109). -/
def rearmed (s : State) (line : Line) : Mask :=
  s.lamps.failed line &&& ~~~senseLine s.lamps.raw line &&& maskOf (proved s)

/-- A LAMP_FAIL is reported for the line at this sample (R109). -/
def lampReported (s : State) (g : GroupNo) (line : Line) : Bool :=
  lampFailing s g line && !(rearmed s line).getLsbD g.val

/-- The flags of a line after the sample (R109). -/
def nextFailed (s : State) (line : Line) : Mask := rearmed s line ||| maskOf fun g => lampFailing s g line

/-- Every run, mark and flag after the sample, all on one reading (R103, R104, R109). -/
def judge (s : State) : State :=
  let pd := provingDelay s
  { s with lamps := { s.lamps with
      conflictRuns := Vector.ofFn fun j => Vector.ofFn fun i => nextRun (conflictFound s j i) true pd (conflictRun s j i)
      uncommandedRuns := Vector.ofFn fun g => nextRun (uncommandedFound s g) true pd (s.lamps.uncommandedRuns.get g)
      stopOutRuns := Vector.ofFn fun g =>
        nextRun (lampOutFound s g .stop) (!(s.record g).redundant) pd (s.lamps.stopOutRuns.get g)
      clearOutRuns := Vector.ofFn fun g => lampOutCount s g .clear
      goOutRuns := Vector.ofFn fun g => lampOutCount s g .go
      stopFailed := nextFailed s .stop
      clearFailed := nextFailed s .clear
      goFailed := nextFailed s .go } }

/-- The LAMP_FAIL record of a line, if the sample `r` reports one (R109). -/
def reportLine (r : State) (g : GroupNo) (line : Line) (s : State) : State :=
  if lampReported r g line then
    submit .lampFail (BitVec.ofNat 8 g.val) (lampFailDetail line (r.group g).state) s
  else s

/-- The LAMP_FAIL records of the sample, "in ascending group number, and within one group in the order STOP, CLEAR, GO"
(R110). -/
def reportLamps (r s : State) : State :=
  (List.finRange 32).foldl (fun s g => reportLine r g .go (reportLine r g .clear (reportLine r g .stop s))) s

/-- The CONFLICT declarations, "in ascending order of the lower group number and then of the higher" (R105, R110). -/
def declareConflicts (r s : State) : State :=
  (List.finRange 32).foldl (fun s j => (List.finRange 32).foldl (fun s i =>
    if conflictDeclared r j i then declareFault .conflict (BitVec.ofNat 8 j.val) (BitVec.ofNat 8 i.val) s else s) s) s

/-- The UNCOMMANDED_GO declarations in ascending group number (R106, R110). -/
def declareUncommanded (r s : State) : State :=
  (List.finRange 32).foldl (fun s g =>
    if uncommandedDeclared r g then declareFault .uncommandedGo (BitVec.ofNat 8 g.val) Config.absent s else s) s

/-- The RED_OUT declarations in ascending group number (R107, R110). -/
def declareRedOut (r s : State) : State :=
  (List.finRange 32).foldl (fun s g =>
    if redOutDeclared r g then declareFault .redOut (BitVec.ofNat 8 g.val) Config.absent s else s) s

/-- The reading of a sample: the state with the sample in its windows (R103). -/
def reading (x : SenseSample) (s : State) : State :=
  takeSample x { s with parts := { s.parts with lamps := false } }

/-- One sample, with its reports before its declarations (R110), and the interval after it. -/
def takeLampSample (x : SenseSample) (s : State) : State :=
  let r := reading x s
  openInterval (declareRedOut r (declareUncommanded r (declareConflicts r (reportLamps r (judge r)))))

/-- The lamp monitor's part of the present event (R100); without one due it is no event. -/
def lampPart (x : SenseSample) (s : State) : State := if s.parts.lamps then takeLampSample x s else s

/-- LAMP_SAMPLE (R100). -/
def execLampSample (x : SenseSample) (s : State) : Host.Outcome State Fault Refusal := .next (lampPart x s)

/-- CONFLICT (R105): the sample at which CONFLICT is declared for the pair. -/
def execConflict (j i : GroupNo) (x : SenseSample) (s : State) : Host.Outcome State Fault Refusal :=
  .next (if conflictDeclared (reading x s) j i then lampPart x s else s)

/-- UNCOMMANDED_GO (R106): the sample at which it is declared for the group. -/
def execUncommandedGo (g : GroupNo) (x : SenseSample) (s : State) : Host.Outcome State Fault Refusal :=
  .next (if uncommandedDeclared (reading x s) g then lampPart x s else s)

/-- RED_OUT (R107): the sample at which it is declared for the group. -/
def execRedOut (g : GroupNo) (x : SenseSample) (s : State) : Host.Outcome State Fault Refusal :=
  .next (if redOutDeclared (reading x s) g then lampPart x s else s)

/-- LAMP_FAIL (R109): the sample at which it is reported for the group's line. -/
def execLampFail (g : GroupNo) (line : Line) (x : SenseSample) (s : State) : Host.Outcome State Fault Refusal :=
  .next (if lampReported (reading x s) g line then lampPart x s else s)

end Sys2Proof.Machine
end

