-- ==== Sys2Proof/Machine/Modes.lean ====
section
/-! DEFINITION. The mode controller's part of a decisecond event: the mode timers (R47, R48, R52, R57), the liveness timer (R54), the hold lines
(R61, R62) and the commissioning switch (R59, R60). Each of the five is taken once per event; MODE_CONTROLLER_STEP takes all that are
due, and the command of an expiry or of an edge takes its own part, in the case that the expiry or the edge falls in it. -/

namespace Sys2Proof.Machine

open Sys2Proof

/-- The limit of the start-flash timer: SF, or 100 ds on an UNCONFIGURED device (R48). -/
def startFlashLimit (s : State) : Nat :=
  if s.store.nv.valid then s.active.timing.startFlash.toNat else Config.unconfiguredStartFlash

/-- The expiry of the start-flash timer: to ALL_STOP when normal-pending is set, the device is configured and no commit is in progress;
otherwise to FLASH with cause RESET (R48). -/
def startFlashEnd (s : State) : State :=
  if s.mode.normalPending = true ∧ s.store.nv.valid = true ∧ s.store.busy = false then
    allStopEntry (setNormalPending false s)
  else changeMode .flash .reset id s

/-- The mode timer of the present mode advances, and its expiry is taken in that advance (R47, R48, R52, R57). -/
def advanceModeTimer (s : State) : State :=
  match s.mode.mode with
  | .startFlash =>
    if startFlashLimit s ≤ s.mode.startFlashTimer + 1 then startFlashEnd s
    else { s with mode := { s.mode with startFlashTimer := s.mode.startFlashTimer + 1 } }
  | .allStop =>
    if s.active.timing.allStop.toNat ≤ s.mode.allStopTimer + 1 then normalEntry s
    else { s with mode := { s.mode with allStopTimer := s.mode.allStopTimer + 1 } }
  | .toFlash =>
    if s.active.timing.flashEntry.toNat ≤ s.mode.flashEntryTimer + 1 then flashEntry s.mode.cause s
    else { s with mode := { s.mode with flashEntryTimer := s.mode.flashEntryTimer + 1 } }
  | _ => s

/-- The mode timer runs, and no start of this event holds its advance back (R47). -/
def modeTimerRuns (s : State) : Bool := s.parts.modeTimer && s.mode.running && !s.parts.heldModeTimer

/-- The mode timer's part of the present event (R47). -/
def modeTimerPart (s : State) : State :=
  if s.parts.modeTimer then
    let t := { s with parts := { s.parts with modeTimer := false, heldModeTimer := false } }
    if modeTimerRuns s then advanceModeTimer t else t
  else s

/-- The liveness timer advances in this event: it runs in ALL_STOP and NORMAL (R54). -/
def livenessRuns (s : State) : Bool := s.parts.liveness && s.mode.mode.supervised && !s.parts.heldLiveness

/-- The liveness timer's advance and its expiry at L (R54, R175). -/
def advanceLiveness (s : State) : State :=
  if s.active.timing.liveness.toNat ≤ s.page.liveness + 1 then
    let nv := { s.store.nv with livenessLosses := satAdd s.store.nv.livenessLosses Config.counterLimit }
    toFlashEntry .liveness { s with store := { s.store with nv := nv } }
  else { s with page := { s.page with liveness := s.page.liveness + 1 } }

/-- The liveness timer's part of the present event (R54). -/
def livenessPart (s : State) : State :=
  if s.parts.liveness then
    let t := { s with parts := { s.parts with liveness := false, heldLiveness := false } }
    if livenessRuns s then advanceLiveness t else t
  else s

/-- One sample of a two-sample filter: a level that differs from the filtered one is taken at its second sample in a row (R59, R61). -/
def Filter.sample (f : Filter) (x : Bool) : Filter :=
  if x = f.level then { f with differed := false }
  else if f.differed then ⟨x, false⟩
  else { f with differed := true }

/-- The filter of a hold line. -/
def holdFilter (s : State) (line : Fin 2) : Filter := if line = 0 then s.mode.h0 else s.mode.h1

/-- The filter of a hold line replaced. -/
def setHoldFilter (line : Fin 2) (f : Filter) (s : State) : State :=
  if line = 0 then { s with mode := { s.mode with h0 := f } } else { s with mode := { s.mode with h1 := f } }

/-- The hold line's part of the present event is still due. -/
def holdDue (s : State) (line : Fin 2) : Bool := if line = 0 then s.parts.hold0 else s.parts.hold1

/-- The hold line's part of the present event is taken. -/
def holdTaken (line : Fin 2) (s : State) : State :=
  if line = 0 then { s with parts := { s.parts with hold0 := false } } else { s with parts := { s.parts with hold1 := false } }

/-- The edge of a hold line: a HOLD record in every mode, and at an edge to asserted the hold rule (R61, R62). -/
def holdEdge (line : Fin 2) (level : Bool) (s : State) : State :=
  let t := submit .hold (BitVec.ofNat 8 line.val) (bitWord level 0) s
  if level then holdSweep t else t

/-- One sample of a hold line (R61). -/
def sampleHold (line : Fin 2) (x : Bool) (s : State) : State :=
  let f := (holdFilter s line).sample x
  let t := setHoldFilter line f s
  if f.level = (holdFilter s line).level then t else holdEdge line f.level t

/-- The hold line's part of the present event (R61). -/
def holdPart (line : Fin 2) (x : Bool) (s : State) : State :=
  if holdDue s line then sampleHold line x (holdTaken line s) else s

/-- One sample of the commissioning switch, `true` for closed; an opening in DARK takes the mode to FLASH with cause SWITCH
(R59, R60). -/
def sampleSwitch (closed : Bool) (s : State) : State :=
  let f := s.mode.switch.sample closed
  let t := { s with mode := { s.mode with switch := f } }
  if s.mode.switch.level = true ∧ f.level = false ∧ s.mode.mode = .dark then flashEntry .switch t else t

/-- The switch's part of the present event (R59). -/
def switchPart (closed : Bool) (s : State) : State :=
  if s.parts.switch then sampleSwitch closed { s with parts := { s.parts with switch := false } } else s

/-- The mode controller's step: every part still due, the timers before the inputs (notes/assumptions/4.md). -/
def modeStep (h0 h1 closed : Bool) (s : State) : State :=
  switchPart closed (holdPart 1 h1 (holdPart 0 h0 (livenessPart (modeTimerPart s))))

/-- MODE_CONTROLLER_STEP (R47, R54, R59, R61). -/
def execModeControllerStep (h0 h1 closed : Bool) (s : State) : Host.Outcome State Fault Refusal := .next (modeStep h0 h1 closed s)

/-- START_FLASH_EXPIRY (R48): the mode timer's part, in which the start-flash timer reaches its limit. -/
def execStartFlashExpiry (s : State) : Host.Outcome State Fault Refusal :=
  .next (if modeTimerRuns s = true ∧ s.mode.mode = .startFlash ∧ startFlashLimit s ≤ s.mode.startFlashTimer + 1 then modeTimerPart s else s)

/-- ALL_STOP_EXPIRY (R52): the mode timer's part, in which the all-stop timer reaches AS. -/
def execAllStopExpiry (s : State) : Host.Outcome State Fault Refusal :=
  .next (if modeTimerRuns s = true ∧ s.mode.mode = .allStop ∧ s.active.timing.allStop.toNat ≤ s.mode.allStopTimer + 1
    then modeTimerPart s else s)

/-- FLASH_ENTRY_TIMER_EXPIRY (R57): the mode timer's part, in which the flash-entry timer reaches FE. -/
def execFlashEntryTimerExpiry (s : State) : Host.Outcome State Fault Refusal :=
  .next (if modeTimerRuns s = true ∧ s.mode.mode = .toFlash ∧ s.active.timing.flashEntry.toNat ≤ s.mode.flashEntryTimer + 1
    then modeTimerPart s else s)

/-- LIVENESS_EXPIRY (R54): the liveness timer's part, in which it reaches L. -/
def execLivenessExpiry (s : State) : Host.Outcome State Fault Refusal :=
  .next (if livenessRuns s = true ∧ s.active.timing.liveness.toNat ≤ s.page.liveness + 1 then livenessPart s else s)

/-- HOLD (R61): the hold line's part, in which its filtered state changes to the level sampled. -/
def execHold (line : Fin 2) (asserted : Bool) (s : State) : Host.Outcome State Fault Refusal :=
  .next (if holdDue s line = true ∧ (holdFilter s line).differed = true ∧ (holdFilter s line).level ≠ asserted
    then holdPart line asserted s else s)

/-- COMMISSIONING_SWITCH_CHANGE (R59): the switch's part, in which its filtered state changes to the level sampled. -/
def execCommissioningSwitchChange (closed : Bool) (s : State) : Host.Outcome State Fault Refusal :=
  .next (if s.parts.switch = true ∧ s.mode.switch.differed = true ∧ s.mode.switch.level ≠ closed then switchPart closed s else s)

end Sys2Proof.Machine
end

