-- ==== Sys2Proof/Machine/Resets.lean ====
section
/-! DEFINITION. Resets and the loss of supply: RESET_ASSERTED, POWER_LOSS and RESET_END (R22, R44, R68, R82, R99, R112, R129, R146, R159, R162,
R167, R173). -/

namespace Sys2Proof.Machine

open Sys2Proof

/-- The volatile state set back: every value as at the end of a reset with no configured group, on the non-volatile contents as they
stand. A commit in progress is abandoned with the old active tables whole (R173). The sender's queue, the free choices taken and the
strap value last latched are kept (notes/assumptions/11.md, 34.md). -/
def setBack (s : State) : State :=
  { State.reset with
    store := { State.reset.store with nv := s.store.nv }
    tap := { State.reset.tap with strap := s.tap.strap }
    queue := { State.reset.queue with choices := s.queue.choices }
    pending := s.pending }

/-- A reset is asserted: every block is held in reset, every group in UNLIT, the clock at 0 (R1, R22, R82). -/
def assertReset (kind : ResetKind) (s : State) : State :=
  { setBack s with
    powerOnHeld := s.powerOnHeld || decide (kind = .powerOn)
    externalHeld := s.externalHeld || decide (kind = .external) }

/-- The state an access in progress had left when the reset began: what it does, where the device had acted on it (R82). -/
def accessDone (p : AccessInProgress) (s : State) : State := if p.acted then busAccess p.access s else s

/-- The pins as an access in progress completes under the reset: as a PASSED access, but that a MIRRORED write whose forwarded cycle had
begun completes with the forwarded data (R82). -/
def completedPins (p : AccessInProgress) (s : State) : BusPins :=
  let passed := (passAccess p.access (beginAccess s)).bus
  if p.acted = true ∧ p.access.writeStrobe = true then ⟨none, (busAccess p.access s).bus.cycle.or passed.cycle⟩ else passed

/-- A reset begins, with the access it finds in progress: "The device's state is set back by the reset whatever the access had done to
it", and the access is completed as a PASSED one (R82, notes/assumptions/12.md). -/
def beginReset (r : ResetAssertion) (s : State) : State :=
  match r.inProgress with
  | some p => { assertReset r.kind (accessDone p s) with bus := completedPins p s }
  | none => assertReset r.kind s

/-- RESET_ASSERTED (R82). -/
def execResetAsserted (kind : ResetAssertion) (s : State) : Host.Outcome State Fault Refusal := .next (beginReset kind s)

/-- POWER_LOSS (R161, R173): what is not kept without supply is lost; the supply returns into a power-on reset
(notes/assumptions/5.md). -/
def execPowerLoss (s : State) : Host.Outcome State Fault Refusal := .next (assertReset .powerOn s)

/-- At the end of a power-on reset the section lock flags are cleared where the switch input is closed and the freeze clear (R167). -/
def clearLocks (kind : ResetKind) (switchClosed : Bool) (nv : NonVolatile) : NonVolatile :=
  if kind = .powerOn ∧ switchClosed = true ∧ nv.freeze = false then { nv with lockFlags := 0 } else nv

/-- A group at the end of a reset: FLASHING if it is configured, UNLIT if not (R22). -/
def groupAtReset (nv : NonVolatile) (g : GroupNo) : Group :=
  if nv.valid = true ∧ g.val < nv.active.timing.groupCount.toNat then { Group.unconfigured with state := .flashing }
  else Group.unconfigured

/-- The device leaves reset: the active tables are loaded, staging is a copy of them or 0 (R162), the straps and the effective level map
are latched (R70, R76), and every block takes its reset values. -/
def leaveReset (straps : BitVec 4) (nv : NonVolatile) (s : State) : State :=
  { setBack s with
    groups := Vector.ofFn (groupAtReset nv)
    tap := ⟨straps, if nv.valid then nv.active.levels else Config.defaultLevelMap⟩
    store := ⟨nv, if nv.valid then nv.active else Tables.zero, false, .none⟩ }

/-- The end of a reset; the device leaves reset when neither is held any more. A reset that is not held has no end. -/
def endReset (kind : ResetKind) (straps : BitVec 4) (switchClosed : Bool) (s : State) : State :=
  let was := match kind with
    | .powerOn => s.powerOnHeld
    | .external => s.externalHeld
  let nv := clearLocks kind switchClosed s.store.nv
  let still := match kind with
    | .powerOn => s.externalHeld
    | .external => s.powerOnHeld
  if was = false then s
  else if still then
    { s with
      store := { s.store with nv := nv }
      powerOnHeld := s.powerOnHeld && decide (kind ≠ .powerOn)
      externalHeld := s.externalHeld && decide (kind ≠ .external) }
  else leaveReset straps nv s

/-- RESET_END (R162). -/
def execResetEnd (kind : ResetKind) (straps : BitVec 4) (switchClosed : Bool) (s : State) : Host.Outcome State Fault Refusal :=
  .next (endReset kind straps switchClosed s)

end Sys2Proof.Machine
end

