-- ==== Sys2Proof/Machine/Dispatch.lean ====
section
/-! DEFINITION. The dispatch of the commands: one arm per row of spec/opcode_table.json, each one call of its meaning. -/

namespace Sys2Proof.Machine

open Sys2Proof

/-- The effect of a command on everything but the queue of waiting commands. -/
def exec (i : Instr) (s : State) : Host.Outcome State Fault Refusal :=
  match i with
  | .resetAsserted kind => Sys2Proof.Machine.execResetAsserted kind s
  | .powerLoss => Sys2Proof.Machine.execPowerLoss s
  | .resetEnd kind straps switchClosed => Sys2Proof.Machine.execResetEnd kind straps switchClosed s
  | .decisecondEvent => Sys2Proof.Machine.execDecisecondEvent s
  | .groupSequencerStep => Sys2Proof.Machine.execGroupSequencerStep s
  | .evaluation => Sys2Proof.Machine.execEvaluation s
  | .prepareExpiry g => Sys2Proof.Machine.execPrepareExpiry g s
  | .goTimerReachesMg g => Sys2Proof.Machine.execGoTimerReachesMg g s
  | .clearingExpiry g => Sys2Proof.Machine.execClearingExpiry g s
  | .modeControllerStep h0 h1 switchClosed => Sys2Proof.Machine.execModeControllerStep h0 h1 switchClosed s
  | .startFlashExpiry => Sys2Proof.Machine.execStartFlashExpiry s
  | .allStopExpiry => Sys2Proof.Machine.execAllStopExpiry s
  | .flashEntryTimerExpiry => Sys2Proof.Machine.execFlashEntryTimerExpiry s
  | .livenessExpiry => Sys2Proof.Machine.execLivenessExpiry s
  | .refusalLimitReached word w => Sys2Proof.Machine.execRefusalLimitReached word w s
  | .hold line asserted => Sys2Proof.Machine.execHold line asserted s
  | .commissioningSwitchChange closed => Sys2Proof.Machine.execCommissioningSwitchChange closed s
  | .lampSample x => Sys2Proof.Machine.execLampSample x s
  | .conflict j k x => Sys2Proof.Machine.execConflict j k x s
  | .uncommandedGo g x => Sys2Proof.Machine.execUncommandedGo g x s
  | .redOut g x => Sys2Proof.Machine.execRedOut g x s
  | .lampFail g line x => Sys2Proof.Machine.execLampFail g line x s
  | .detectorSample inputs => Sys2Proof.Machine.execDetectorSample inputs s
  | .activation d inputs => Sys2Proof.Machine.execActivation d inputs s
  | .deactivation d inputs => Sys2Proof.Machine.execDeactivation d inputs s
  | .detCount d inputs => Sys2Proof.Machine.execDetCount d inputs s
  | .detectorStep => Sys2Proof.Machine.execDetectorStep s
  | .stuckOn d => Sys2Proof.Machine.execStuckOn d s
  | .stuckOff d => Sys2Proof.Machine.execStuckOff d s
  | .frameEvent => Sys2Proof.Machine.execFrameEvent s
  | .goodReply r => Sys2Proof.Machine.execGoodReply r s
  | .replyMiss => Sys2Proof.Machine.execReplyMiss s
  | .signSilent => Sys2Proof.Machine.execSignSilent s
  | .timeMark => Sys2Proof.Machine.execTimeMark s
  | .passedAccess a => Sys2Proof.Machine.execPassedAccess a s
  | .goMaskWrite word w => Sys2Proof.Machine.execGoMaskWrite word w s
  | .setAlias word w => Sys2Proof.Machine.execSetAlias word w s
  | .clearAlias word w => Sys2Proof.Machine.execClearAlias word w s
  | .toggleAlias word w => Sys2Proof.Machine.execToggleAlias word w s
  | .modeWordFlash enables level => Sys2Proof.Machine.execModeWordFlash enables level s
  | .modeWordNormal enables level => Sys2Proof.Machine.execModeWordNormal enables level s
  | .modeWordDark enables level => Sys2Proof.Machine.execModeWordDark enables level s
  | .modeWordValueRefused w => Sys2Proof.Machine.execModeWordValueRefused w s
  | .requestBaseRead word enables level memory => Sys2Proof.Machine.execRequestBaseRead word enables level memory s
  | .take reader enables level memory => Sys2Proof.Machine.execTake reader enables level memory s
  | .lowWordRead page offset enables level memory => Sys2Proof.Machine.execLowWordRead page offset enables level memory s
  | .enableReaderB w => Sys2Proof.Machine.execEnableReaderB w s
  | .disableReaderB w => Sys2Proof.Machine.execDisableReaderB w s
  | .timeMarkWordWrite w => Sys2Proof.Machine.execTimeMarkWordWrite w s
  | .detectorSelectWrite w => Sys2Proof.Machine.execDetectorSelectWrite w s
  | .detectorKindWrite w => Sys2Proof.Machine.execDetectorKindWrite w s
  | .detectorSettingsWrite setting w => Sys2Proof.Machine.execDetectorSettingsWrite setting w s
  | .callClearAlias word w => Sys2Proof.Machine.execCallClearAlias word w s
  | .signImageWrite word w => Sys2Proof.Machine.execSignImageWrite word w s
  | .stagingWrite offset w => Sys2Proof.Machine.execStagingWrite offset w s
  | .lockWrite w => Sys2Proof.Machine.execLockWrite w s
  | .lockFreeze w => Sys2Proof.Machine.execLockFreeze w s
  | .commitRequest w => Sys2Proof.Machine.execCommitRequest w s
  | .commitCompletion => Sys2Proof.Machine.execCommitCompletion s
  | .serviceWrite w => Sys2Proof.Machine.execServiceWrite w s
  | .servedWrite page offset w => Sys2Proof.Machine.execServedWrite page offset w s
  | .channelByteStart => Sys2Proof.Machine.execChannelByteStart s
  | .replyWindowOpen => Sys2Proof.Machine.execReplyWindowOpen s

end Sys2Proof.Machine
end

