-- ==== Sys2Proof/Safety.lean ====
section
/-! DEFINITION. What a safe run is, in the terms the statements use: the exclusion of conflicting movements (R37), the dark GO lines of the
flash modes (R67), valid tables where they act (R172), the intergreens that run towards a GO entry (R41), the queue's shape (R149) and
the ranges of the counted values. -/

namespace Sys2Proof.Machine

open Sys2Proof

/-! ### Movements -/

/-- No two configured groups whose conflict bit is set are both in PREPARE or GO (R37). -/
def Exclusive (s : State) : Prop :=
  ∀ j i, s.inConflict j i = true → (s.group j).state.active = true → (s.group i).state.active = false

/-- The states a configured group can be in, by the mode (chapter 3's first table). -/
def stateFitsMode (m : Mode) (st : GroupState) : Bool :=
  match m with
  | .allStop => st = .stop || st = .clearing
  | .normal => st ≠ .flashing && st ≠ .unlit
  | .toFlash => st ≠ .flashing && st ≠ .unlit
  | _ => st = .flashing || st = .unlit

/-- The invariant behind R37, R67 and R172: an unconfigured group holds its fixed values; a configured group is in a state of the mode;
conflicting groups are never both in PREPARE or GO; tables once committed are valid, and outside the flash modes there are some; and a
commit is in progress in a flash mode alone, with valid staging tables. -/
structure SafetyInv (s : State) : Prop where
  unconfigured : ∀ g, s.configured g = false → s.group g = Group.unconfigured
  states : ∀ g, s.configured g = true → stateFitsMode s.mode.mode (s.group g).state = true
  exclusive : Exclusive s
  tables : s.store.nv.valid = true → s.active.firstViolation = none
  configuredMode : s.mode.mode.flashing = false → s.store.nv.valid = true
  commit : s.store.busy = true → s.mode.mode.flashing = true ∧ s.store.staging.firstViolation = none

/-! ### Intergreens -/

/-- The sequencer's step of the present event is still to be taken and will leave the group's timers where they are (R35, R46). -/
def timersHeld (s : State) (g : GroupNo) : Bool := s.parts.sequencer && s.parts.heldTimers.getLsbD g.val

/-- The sequencer's step of the present event is still to be taken and will leave the group's E where it is (R46). -/
def elapsedHeld (s : State) (g : GroupNo) : Bool := s.parts.sequencer && s.parts.heldElapsed.getLsbD g.val

/-- The invariant behind R41: a running clearing-timer is the group's E and short of CL; a running prepare-timer is short of P, and what
is left of it covers what is left of every intergreen into the group; and no step holds an E back without the timers beside it. -/
structure IntergreenInv (s : State) : Prop where
  clearing : ∀ g, s.configured g = true → (s.group g).state = .clearing →
    (s.group g).elapsed = (s.group g).clearingTimer ∧ (s.group g).clearingTimer < s.clearingTime g ∧
      elapsedHeld s g = timersHeld s g
  prepare : ∀ g, s.configured g = true → (s.group g).state = .prepare → (s.group g).prepareTimer < s.prepareTime g
  approach : ∀ j i, s.inConflict j i = true → (s.group i).state = .prepare →
    s.active.intergreenOf j i ≤ (s.group j).elapsed + (s.prepareTime i - (s.group i).prepareTimer) ∧
      (elapsedHeld s j = true → timersHeld s i = true)

/-! ### The event queue -/

/-- The shape of the queue (R149, R154): at most 128 records, the taken-by counts within them, both 0 with reader B disabled and one of them
0 otherwise; no reader has taken a submission of the present moment, and one is dropped with the queue full alone; every missed count is
at most 255. -/
structure QueueInv (q : Queue) : Prop where
  depth : q.held.length ≤ 128
  takenA : q.takenA + q.fresh ≤ q.held.length
  takenB : q.takenB + q.fresh ≤ q.held.length
  disabled : q.enabledB = false → q.takenA = 0 ∧ q.takenB = 0
  shared : q.takenA = 0 ∨ q.takenB = 0
  missed : q.missed ≤ 255
  full : q.dropped ≠ [] → q.held.length = 128
  counts : (∀ r ∈ q.held, r.missed ≤ 255) ∧ ∀ r ∈ q.dropped, r.missed ≤ 255

/-! ### Ranges -/

/-- The ranges of a group's values (chapter 1.4); the prepare- and the clearing-timer as one byte each, which 11.5 gives them whatever the
tables hold. -/
def groupInRange (x : Group) : Prop :=
  x.prepareTimer ≤ 255 ∧ x.goTimer ≤ 65535 ∧ x.clearingTimer ≤ 255 ∧ x.elapsed ≤ 65535 ∧ x.age ≤ 65535

/-- The three mode timers as one word each (11.5). -/
def modeTimersInRange (m : ModeControl) : Prop :=
  m.startFlashTimer ≤ 65535 ∧ m.allStopTimer ≤ 65535 ∧ m.flashEntryTimer ≤ 65535

/-- The windows hold six samples and six intervals at most (R101, R102), and every run of the lamp monitor is at most 255 (R103). -/
def lampsInRange (l : LampMonitor) : Prop :=
  l.samples.length ≤ 6 ∧ l.goIntervals.length ≤ 6 ∧ (∀ j i : GroupNo, ((l.conflictRuns.get j).get i).count ≤ 255) ∧
  ∀ g : GroupNo, (l.uncommandedRuns.get g).count ≤ 255 ∧ (l.stopOutRuns.get g).count ≤ 255 ∧ l.clearOutRuns.get g ≤ 255 ∧
    l.goOutRuns.get g ≤ 255

/-- The ranges of a detector's values (R113 and chapter 7's table of state). -/
def detectorInRange (v : Detector) : Prop :=
  1 ≤ v.prescale.toNat ∧ v.run ≤ 255 ∧ v.occupancy ≤ 153001 ∧ v.gap ≤ 153001 ∧ v.accumulator ≤ 65534

/-- The non-volatile counters are at most 16,777,215 (R175). -/
def countersInRange (nv : NonVolatile) : Prop :=
  nv.faultEntries ≤ 16777215 ∧ nv.livenessLosses ≤ 16777215 ∧ nv.commits ≤ 16777215 ∧ nv.service ≤ 16777215

/-- Every counted value lies in the range the manual gives it. -/
structure RangeInv (s : State) : Prop where
  groups : ∀ g, groupInRange (s.group g)
  waits : ∀ g, s.arbiter.waits.get g ≤ 255 ∨ s.arbiter.waits.get g = 65535
  detectors : ∀ d, detectorInRange (s.detector d)
  select : s.detectors.select.toNat ≤ 47
  signs : ∀ r, (s.link.signs.get r).missRun ≤ 255
  cursor : s.link.cursor.toNat ≤ 16
  refusals : s.page.refusals ≤ 1023
  counters : countersInRange s.store.nv
  modeTimers : modeTimersInRange s.mode
  liveness : s.page.liveness ≤ 65535
  lamps : lampsInRange s.lamps

/-- The ranges that valid tables give the timers: P to 30, CL to 200, SF to 600, AS, FE and L to 100 ds (R3, R169, R47, R54). -/
structure TimersInRange (s : State) : Prop where
  groups : ∀ g, (s.group g).prepareTimer ≤ 30 ∧ (s.group g).clearingTimer ≤ 200
  mode : s.mode.startFlashTimer ≤ 600 ∧ s.mode.allStopTimer ≤ 100 ∧ s.mode.flashEntryTimer ≤ 100
  liveness : s.page.liveness ≤ 100

/-! ### Records -/

/-- What a record says, its missed count aside. -/
def Record.content (r : Record) : EventKind × Word × Byte × Word := (r.kind, r.stamp, r.subject, r.detail)

/-- What the held records say, oldest first. -/
def Queue.contents (q : Queue) : List (EventKind × Word × Byte × Word) := q.held.map Record.content

/-- What the held records of one block say, oldest first. -/
def Queue.ofBlock (q : Queue) (b : Block) : List (EventKind × Word × Byte × Word) := q.contents.filter fun x => x.1.block = b

/-- What the held GROUP_STATE records say, oldest first. -/
def Queue.groupStates (q : Queue) : List (EventKind × Word × Byte × Word) := q.contents.filter fun x => x.1 = .groupState

/-- What the held LATE_CANCEL and STOP_HELD records say, oldest first. -/
def Queue.requestRecords (q : Queue) : List (EventKind × Word × Byte × Word) :=
  q.contents.filter fun x => x.1 = .lateCancel ∨ x.1 = .stopHeld

/-- A record of a kind, subject and detail, stamped with the clock of `s`, is among the held records. -/
def Records (q : Queue) (s : State) (kind : EventKind) (subject : Byte) (detail : Word) : Prop :=
  ∃ r ∈ q.held, r.kind = kind ∧ r.subject = subject ∧ r.detail = detail ∧ r.stamp = lowWord s.clock

/-- The number of a group, a detector or a sign record as a subject (R147). -/
def subjectOf (n : Nat) : Byte := BitVec.ofNat 8 n

/-! ### Frames -/

/-- From `s` to `t` the last configured group enters STOP with the mode ALL_STOP or TO_FLASH and its timer not yet started: the moment the
all-stop or the flash-entry timer starts (R52, R57). -/
def lastEntersStop (s t : State) : Bool :=
  decide (s.mode.mode = .allStop ∨ s.mode.mode = .toFlash) && !s.mode.running && !s.allStopped && t.allStopped

/-- A configured group enters a state between `s` and `t`: every one where all are ordered, otherwise each whose state changes. -/
def entersState (s t : State) (ordered : Bool) (g : GroupNo) : Bool :=
  s.configured g && (ordered || decide ((t.group g).state ≠ (s.group g).state))

/-- What an event that moves groups from `s` to `t` holds back until the next decisecond event, while the sequencer's step of the present
one is still due: the timers of each group that enters a state, and E where the entry set it (R35, R46; notes/assumptions/1.md,
19.md). -/
def HeldBack (s t : State) (ordered : Bool) : Prop :=
  ∀ g : GroupNo,
    t.parts.heldTimers.getLsbD g.val = (s.parts.heldTimers.getLsbD g.val || (s.parts.sequencer && entersState s t ordered g)) ∧
    t.parts.heldElapsed.getLsbD g.val = (s.parts.heldElapsed.getLsbD g.val ||
      (s.parts.sequencer && entersState s t ordered g && (ordered || decide ((t.group g).state = .clearing))))

/-- From `s` to `t` nothing changed but groups, the running GO interval mark, call bits, the queue, the timers of the stopped modes and what
an event holds back: the frame of every move of groups (R7, R8, R9, R21, R123). -/
structure GroupFrame (s t : State) : Prop where
  powerOnHeld : t.powerOnHeld = s.powerOnHeld
  externalHeld : t.externalHeld = s.externalHeld
  clock : t.clock = s.clock
  arbiter : t.arbiter = s.arbiter
  page : t.page = s.page
  tap : t.tap = s.tap
  link : t.link = s.link
  store : t.store = s.store
  latches : t.latches = s.latches
  bus : t.bus = s.bus
  pending : t.pending = s.pending
  mode : t.mode = { s.mode with
    running := t.mode.running, allStopTimer := t.mode.allStopTimer, flashEntryTimer := t.mode.flashEntryTimer }
  lamps : t.lamps = { s.lamps with goMark := t.lamps.goMark }
  detectors : t.detectors = { s.detectors with calls := t.detectors.calls }
  parts : t.parts = { s.parts with
    heldTimers := t.parts.heldTimers, heldElapsed := t.parts.heldElapsed, heldAges := t.parts.heldAges
    heldModeTimer := t.parts.heldModeTimer }

/-- The GROUP_STATE record of a change of a group's state, stamped with the clock of `s` (R8). -/
def groupRecord (s : State) (g : GroupNo) (new old : GroupState) : EventKind × Word × Byte × Word :=
  (.groupState, lowWord s.clock, subjectOf g.val, groupDetail new old)

/-- The GROUP_STATE records of a move from `s` to `t`, in ascending group number: one for each group whose state changes, and for a group that
goes from PREPARE to CLEARING one for the GO between (R8, R16, R62). -/
def moveRecords (s t : State) : List (EventKind × Word × Byte × Word) :=
  (List.finRange 32).flatMap fun g =>
    if (s.group g).state = .prepare ∧ (t.group g).state = .clearing then [groupRecord s g .go .prepare, groupRecord s g .clearing .go]
    else if (t.group g).state ≠ (s.group g).state then [groupRecord s g (t.group g).state (s.group g).state]
    else []

/-- A move of groups from `s` to `t`, the whole of one command: its frame; the all-stop and the flash-entry timer start exactly as the last
configured group enters STOP (R52, R57); the groups that enter a state take their first advance at the next event (R35, R46); and, where the
queue has room, the GROUP_STATE records of the changes are submitted in ascending group number (R8). -/
structure GroupMove (s t : State) : Prop extends GroupFrame s t where
  timerStarts : lastEntersStop s t = true →
    t.mode.running = true ∧ t.mode.allStopTimer = 0 ∧ t.mode.flashEntryTimer = 0 ∧ t.parts.heldModeTimer = s.parts.modeTimer
  timerStands : lastEntersStop s t = false → t.mode = s.mode ∧ t.parts.heldModeTimer = s.parts.heldModeTimer
  heldBack : HeldBack s t false
  groupRecords : s.queue.held.length ≤ 64 → t.queue.groupStates = s.queue.groupStates ++ moveRecords s t
  heldAges : ∀ g : GroupNo,
    (s.parts.heldAges.getLsbD g.val = true ∨ (s.parts.sequencer = true ∧ entersState s t false g = true) →
      t.parts.heldAges.getLsbD g.val = true) ∧
    (t.parts.heldAges.getLsbD g.val = true → s.parts.heldAges.getLsbD g.val = true ∨
      (s.parts.sequencer = true ∧ (t.group g).age = 0))

/-- A group as entry to CLEARING leaves it (R9, R19). -/
def Group.cleared : Group := ⟨.clearing, 0, 0, 0, false, false, 0, 0⟩

/-- A group as an order into FLASHING or UNLIT leaves it: entered with E as it stood, and not moved where it is there already (R8, R9, R21). -/
def Group.ordered (x : Group) (st : GroupState) : Group := if x.state = st then x else ⟨st, 0, 0, 0, false, false, x.elapsed, 0⟩

/-- A group as entry to STOP leaves it, with E at `e` (R9, R20, R21). -/
def Group.stopped (e : Nat) : Group := ⟨.stop, 0, 0, 0, false, false, e, 0⟩

/-- What an asserted hold line makes of a group's record, the mode being NORMAL or TO_FLASH (R62). -/
def underHold (s : State) (g : GroupNo) (x : Group) : Group :=
  if s.heldByLine g = true then
    match x.state with
    | .go => Group.cleared
    | .prepare => Group.stopped x.elapsed
    | _ => x
  else x

/-- What a request cleared makes of a group's record (R13, R15, R17). -/
def afterCleared (s : State) (g : GroupNo) (x : Group) : Group :=
  match x.state with
  | .stop => { x with age := 0 }
  | .prepare => { x with lateCancel := true }
  | .go => if s.minimumGo g ≤ x.goTimer then Group.cleared else { x with heldStop := true }
  | _ => x

/-- What a request set makes of a group's record (R13, R15, R17). -/
def afterSet (x : Group) : Group :=
  match x.state with
  | .stop => { x with age := 0 }
  | .prepare => { x with lateCancel := false }
  | .go => { x with heldStop := false }
  | _ => x

/-- What TO_FLASH entry makes of a configured group: its request treated as clear (R56), then the hold rule (R62). -/
def atToFlash (s : State) (g : GroupNo) : Group :=
  underHold s g (if s.goMask.getLsbD g.val then afterCleared s g (s.group g) else s.group g)

/-- What a request cleared raises besides GROUP_STATE: LATE_CANCEL in PREPARE, with what is left of P, and STOP_HELD in GO before MG, with
what is left of MG (R15, R17). -/
def stopRecords (s : State) (g : GroupNo) : List (EventKind × Word × Byte × Word) :=
  let x := s.group g
  match x.state with
  | .prepare => [(.lateCancel, lowWord s.clock, subjectOf g.val, BitVec.ofNat 16 (s.prepareTime g - x.prepareTimer))]
  | .go =>
    if x.goTimer < s.minimumGo g then [(.stopHeld, lowWord s.clock, subjectOf g.val, BitVec.ofNat 16 (s.minimumGo g - x.goTimer))]
    else []
  | _ => []

/-- The LATE_CANCEL and STOP_HELD records where the requests of the groups of `m` are cleared, in ascending group number (R56, R90;
notes/assumptions/32.md). -/
def clearRecords (s : State) (m : GroupNo → Bool) : List (EventKind × Word × Byte × Word) :=
  (List.finRange 32).flatMap fun g => if s.configured g && m g then stopRecords s g else []

/-- What every change of mode from `s` to `t` leaves, whatever its orders: the new mode and cause (R45), mode timers at 0 (R47), a MODE
record and the group sequencer's records where the queue has room for all that the change can raise (the GROUP_STATE records, R8, R46; at
TO_FLASH entry the LATE_CANCEL and STOP_HELD records, R56), and everything that is not the mode's, the groups', the table store's or the
bus's as it was. The all-stop and the flash-entry timer run exactly where every configured group is in STOP (R52, R57), and a start or an
order of a decisecond event takes its first advance at the next (R46, R47). -/
structure ModeChange (s t : State) (m : Mode) (c : Cause) : Prop where
  mode : t.mode.mode = m
  cause : t.mode.cause = c
  timers : t.mode.startFlashTimer = 0 ∧ t.mode.allStopTimer = 0 ∧ t.mode.flashEntryTimer = 0
  filters : t.mode.h0 = s.mode.h0 ∧ t.mode.h1 = s.mode.h1 ∧ t.mode.switch = s.mode.switch
  requests : t.page.word0 = s.page.word0 ∧ t.page.word1 = s.page.word1
  unconfigured : ∀ g, s.configured g = false → t.group g = s.group g
  resets : t.powerOnHeld = s.powerOnHeld ∧ t.externalHeld = s.externalHeld
  clock : t.clock = s.clock
  arbiter : t.arbiter = s.arbiter
  tap : t.tap = s.tap
  link : t.link = s.link
  latches : t.latches = s.latches
  lamps : t.lamps = { s.lamps with goMark := t.lamps.goMark }
  detectors : t.detectors = { s.detectors with calls := t.detectors.calls }
  pending : t.pending = s.pending
  record : s.queue.held.length ≤ 60 → Records t.queue s .mode 0xFF (modeDetail m s.mode.mode c)
  groupRecords : s.queue.held.length ≤ 60 →
    (m = .allStop → ∀ g, s.configured g = true → (s.group g).state = .flashing ∨ (s.group g).state = .unlit) →
    t.queue.groupStates = s.queue.groupStates ++ moveRecords s t
  requestRecords : s.queue.held.length ≤ 60 → t.queue.requestRecords =
    s.queue.requestRecords ++ if m = .toFlash then clearRecords s fun g => s.goMask.getLsbD g.val else []
  running : (m = .allStop → (∃ g, s.configured g = true) ∧ ∀ g, s.configured g = true → (s.group g).state ≠ .stop) →
    t.mode.running = (decide (m = .allStop ∨ m = .toFlash) && t.allStopped)
  heldModeTimer : t.parts.heldModeTimer = (t.mode.running && s.parts.modeTimer)
  heldLiveness : t.parts.heldLiveness = if m = .allStop then s.parts.liveness else s.parts.heldLiveness
  parts : t.parts = { s.parts with
    heldTimers := t.parts.heldTimers, heldElapsed := t.parts.heldElapsed, heldAges := t.parts.heldAges
    heldModeTimer := t.parts.heldModeTimer, heldLiveness := t.parts.heldLiveness }
  heldBack : HeldBack s t (decide (m = .allStop))
  heldAges : ∀ g : GroupNo, t.parts.heldAges.getLsbD g.val = (s.parts.heldAges.getLsbD g.val ||
    (s.parts.sequencer && (entersState s t (decide (m = .allStop)) g ||
      (decide (m = .toFlash) && s.configured g && decide ((s.group g).state = .stop) && s.goMask.getLsbD g.val))))

/-- A group as ALL_STOP entry leaves it, by its flash aspect (R51). -/
def atAllStop (s : State) (g : GroupNo) : Group := if (s.record g).aspect = 1 then Group.cleared else Group.stopped 0

/-! ### Declarations and reports of one lamp sample -/

/-- The declarations of a sample's reading in the order they are handed (R110): the cause, the first group and the second, FFh absent. -/
def declarations (r : State) : List (FaultCause × Byte × Byte) :=
  ((List.finRange 32).flatMap fun j => ((List.finRange 32).filter fun i => conflictDeclared r j i).map fun i =>
    (FaultCause.conflict, subjectOf j.val, subjectOf i.val)) ++
  ((List.finRange 32).filter fun g => uncommandedDeclared r g).map (fun g => (FaultCause.uncommandedGo, subjectOf g.val, 0xFF)) ++
  ((List.finRange 32).filter fun g => redOutDeclared r g).map fun g => (FaultCause.redOut, subjectOf g.val, 0xFF)

/-- The lines a sample's reading reports, "in ascending group number, and within one group in the order STOP, CLEAR, GO" (R110). -/
def lampReports (r : State) : List (GroupNo × Line) :=
  (List.finRange 32).flatMap fun g => ([Line.stop, .clear, .go].filter fun line => lampReported r g line).map fun line => (g, line)

/-! ### Violations (R169) -/

/-- A group record outside the column of its kind in R3, or of no kind. -/
def illegalRecord (r : GroupRecord) : Prop :=
  ¬(30 ≤ r.minimumGo.toNat ∧ r.minimumGo.toNat ≤ 600 ∧
    ((r.kind = 0 ∧ 10 ≤ r.prepareTime.toNat ∧ r.prepareTime.toNat ≤ 30 ∧ 30 ≤ r.clearingTime.toNat ∧ r.clearingTime.toNat ≤ 60 ∧
        r.aspect.toNat ≤ 2) ∨
      (r.kind = 1 ∧ r.prepareTime = 0 ∧ 20 ≤ r.clearingTime.toNat ∧ r.clearingTime.toNat ≤ 200 ∧ r.aspect = 0) ∨
      (r.kind = 2 ∧ r.prepareTime = 0 ∧ 20 ≤ r.clearingTime.toNat ∧ r.clearingTime.toNat ≤ 100 ∧ (r.aspect = 0 ∨ r.aspect = 2))))

/-- Condition `code` of R169's table is violated at index `k`. -/
def Violates (t : Tables) (code k : Nat) : Prop :=
  let n := t.timing.groupCount.toNat
  let x := t.timing
  let used := fun (r : SignNo) => (t.signs.get r).address ≠ 0
  let outside := fun (lo hi : Nat) (w : Word) => ¬(lo ≤ w.toNat ∧ w.toNat ≤ hi)
  match code with
  | 1 => k = 0 ∧ ¬(1 ≤ n ∧ n ≤ 32)
  | 2 => ∃ i : GroupNo, k = i.val ∧ i.val < n ∧ illegalRecord (t.groups.get i)
  | 3 => ∃ i : GroupNo, k = i.val ∧ i.val < n ∧ t.conflictBit i i = true
  | 4 => ∃ j i : GroupNo, k = j.val * 32 + i.val ∧ j < i ∧ i.val < n ∧ t.conflictBit j i ≠ t.conflictBit i j
  | 5 => ∃ j i : GroupNo, k = j.val * 32 + i.val ∧ j.val < n ∧ i.val < n ∧ t.conflictBit j i = true ∧
      t.intergreenOf j i < (t.groups.get j).clearingTime.toNat
  | 6 => ∃ line : Fin 2, k = line.val ∧ ∃ i : GroupNo, n ≤ i.val ∧ (t.holds.get line).getLsbD i.val = true
  | 7 => ∃ r : SignNo, k = r.val ∧ used r ∧ (16 < (t.signs.get r).address.toNat ∨
      ∃ q : SignNo, q < r ∧ used q ∧ (t.signs.get q).address = (t.signs.get r).address)
  | 8 => ∃ r : SignNo, k = r.val ∧ used r ∧ (let y := t.signs.get r
      ¬(1 ≤ y.span.toNat ∧ y.span.toNat ≤ 16) ∨ 127 < y.start.toNat ∨ 128 < y.start.toNat + y.span.toNat ∨
      ∃ q : SignNo, q < r ∧ used q ∧ ∃ c, y.covers c = true ∧ (t.signs.get q).covers c = true)
  | 9 => ∃ r : SignNo, k = r.val ∧ used r ∧ (let y := t.signs.get r
      (y.bound ≠ 0xFF ∧ n ≤ y.bound.toNat) ∨ (y.bound = 0xFF ∧ y.required = true))
  | 10 => (k = 1 ∧ outside 30 600 x.startFlash) ∨ (k = 2 ∧ outside 20 100 x.allStop) ∨ (k = 3 ∧ outside 20 100 x.flashEntry) ∨
      (k = 4 ∧ outside 5 100 x.liveness) ∨ (k = 5 ∧ outside 2 10 x.provingDelay) ∨ (k = 6 ∧ outside 0 1023 x.refusalLimit)
  | _ => False

/-- The section column of R169's table. -/
def violationSection (code : Nat) : Section :=
  match code with
  | 2 => .groups
  | 3 => .conflict
  | 4 => .conflict
  | 5 => .intergreen
  | 6 => .holds
  | 7 => .signs
  | 8 => .signs
  | 9 => .signs
  | _ => .timing

/-! ### Commands by the access they make -/

/-- The write a mode-word command makes. -/
def modeWordWriteOf : Instr → Option BusWrite
  | .modeWordFlash e l => some ⟨0, e, l⟩
  | .modeWordNormal e l => some ⟨1, e, l⟩
  | .modeWordDark e l => some ⟨2, e, l⟩
  | .modeWordValueRefused w => some w
  | _ => none

/-- The request-page word and the write of a GO-mask or an alias command. -/
def maskWriteOf : Instr → Option (Nat × BusWrite)
  | .goMaskWrite word w => some (word.val, w)
  | .setAlias word w => some (2 + word.val, w)
  | .clearAlias word w => some (4 + word.val, w)
  | .toggleAlias word w => some (6 + word.val, w)
  | _ => none

/-- The request-page word and the write of a GO-mask, alias or mode-word command. -/
def requestWriteOf (c : Instr) : Option (Nat × BusWrite) :=
  (maskWriteOf c).or ((modeWordWriteOf c).map fun w => (8, w))

/-- The area page, the word offset and the write of a command that is a write to a word of the guarded area, REFUSAL_LIMIT_REACHED aside. -/
def writeOf : Instr → Option (Nat × Nat × BusWrite)
  | .enableReaderB w => some (4, 8, { w.write with data := w.write.data ||| 1 })
  | .disableReaderB w => some (4, 8, { w.write with data := w.write.data &&& 0xFFFE })
  | .timeMarkWordWrite w => some (4, 9, w)
  | .detectorSelectWrite w => some (3, 0, w)
  | .detectorKindWrite w => some (3, 1, w)
  | .detectorSettingsWrite setting w => some (3, 2 + setting.val, w)
  | .callClearAlias word w => some (3, 18 + word.val, w)
  | .signImageWrite word w => some (6, word.val, w)
  | .stagingWrite k w => some (8 + k.val / 256, k.val % 256, w)
  | .lockWrite w => some (12, 1, w)
  | .lockFreeze w => some (12, 1, { w with data := w.data ||| 0x8000 })
  | .commitRequest w => some (12, 0, w)
  | .serviceWrite w => some (12, 5, w)
  | .servedWrite page offset w => some (page.val, offset.val, w)
  | c => (requestWriteOf c).map fun p => (0, p.1, p.2)

/-- The area page, the word offset, the byte enables and memory's word of a command that is a read of a word of the guarded area. -/
def readOf : Instr → Option (Nat × Nat × ByteEnables × Word)
  | .requestBaseRead word e _ memory => some (0, word.val, e, memory)
  | .take r e _ memory => some ((if r.reader = .a then 4 else 5), 3, e, memory)
  | .lowWordRead page offset e _ memory => some (page.val, offset.val, e.enables, memory)
  | _ => none

/-- No reset is held, a byte is enabled, and the write's access level is at most the required one (R75, R81, R82). -/
def Taken (s : State) (required : Level) (w : BusWrite) : Prop :=
  s.held = false ∧ w.enables.any = true ∧ w.level.toNat ≤ required.toNat

/-- The refusal count after one more refused write does not bring ALL_STOP or NORMAL to the refusal limit (R55). -/
def belowRefusalLimit (s : State) : Prop :=
  (s.mode.mode ≠ .allStop ∧ s.mode.mode ≠ .normal) ∨ s.active.timing.refusalLimit = 0 ∨
    min (s.page.refusals + 1) 1023 < s.active.timing.refusalLimit.toNat

/-- What an accepted mode-word write of value `v` leaves of the request page and the bus, the mode left aside (R85, R91, R97, R98); the queue
notes the access (notes/assumptions/41.md). -/
def afterModeWord (s : State) (v : Word) : State :=
  { s with
    page := { s.page with
      word8 := ⟨v, true, false⟩
      refusals := 0
      liveness := if s.mode.mode = .allStop ∨ s.mode.mode = .normal then 0 else s.page.liveness }
    queue := s.queue.atAccess
    bus := ⟨none, some ⟨true, s.guardedAddress 0 8, ⟨true, true⟩, v⟩⟩ }

end Sys2Proof.Machine
end

