-- ==== Sys2Proof/Certificates/Slice0/Obligations.lean ====
section
/-! DEFINITION. The statements for the provers. Each says what a command or the machine does by the rules its docstring names; a
statement of a command's result has as its conclusion that `exec` answers a next state, and what that state holds. -/

open Sys2Proof Sys2Proof.Machine

/-! ### The step -/

/-- A step takes the command at the front of the queue and runs it with the queue's rest; on an empty queue the block idles, and nothing
changes but that the present moment's submissions stand as they are, which is the model's choice (notes/assumptions/6.md, 41.md). -/
def Obligations.StepTakesTheFrontCommand : Prop :=
  (∀ (c : Instr) (rest : List Instr) (s : State), s.pending = c :: rest → step s = exec c { s with pending := rest }) ∧
  ∀ s : State, s.pending = [] → step s = .next { s with queue := { s.queue with fresh := 0, dropped := [], accessed := false, sampled := false } }

/-- Every command completes in every state, and none of them touches the queue of waiting commands. The queue is the model's own, the manual
has none (notes/assumptions/6.md, 18.md); that a row whose occurrence does not happen completes as no event is read from the manual by
inference (notes/assumptions/7.md). -/
def Obligations.EveryCommandCompletesAndKeepsTheQueue : Prop :=
  ∀ (c : Instr) (s : State), ∃ t, exec c s = .next t ∧ t.pending = s.pending

/-! ### Resets -/

/-- RESET_ASSERTED and POWER_LOSS: every block is set back and held, all lines and ATTN are low, a commit in progress is abandoned, and the
non-volatile contents stand (R1, R22, R82, R159, R161, R173). An access in progress is completed as a PASSED one, but that a MIRRORED write
whose forwarded cycle had begun ends with the forwarded data; only what it had done to the non-volatile contents stays (R82). While a reset
is held every access by its own row goes to memory as it is, and no refusal is counted (R82). The model's choices in it: that the supply
returns into a power-on reset (notes/assumptions/5.md); what the registers read while the reset is held, the whole record of an unconfigured
group for each group and an empty queue among it (11.md, DEDUCED); that the sender says whether the device had acted on the access (12.md);
the pins after a reset with no access in progress (28.md); and the strap value that places a word named by page and offset meanwhile
(34.md). -/
def Obligations.AssertedResetHoldsTheBlocks : Prop :=
  (∀ (r : ResetAssertion) (s u : State),
      (∀ p, r.inProgress = some p → p.acted = true → exec (.passedAccess p.access) s = .next u) →
      ((∀ p, r.inProgress = some p → p.acted = false) → u = s) →
      let passed := fun (a : Access) => (if a.writeStrobe then ⟨none, some ⟨true, a.addr, a.enables, a.data⟩⟩
        else if a.readStrobe then ⟨some a.memory, some ⟨false, a.addr, a.enables, 0⟩⟩ else ⟨none, none⟩ : BusPins)
      ∃ t, exec (.resetAsserted r) s = .next t ∧
        (r.kind = .powerOn → r.inProgress = none → exec .powerLoss s = .next t) ∧
        t = { State.reset with
          powerOnHeld := s.powerOnHeld || decide (r.kind = .powerOn)
          externalHeld := s.externalHeld || decide (r.kind = .external)
          store := ⟨u.store.nv, Tables.zero, false, .none⟩
          tap := ⟨s.tap.strap, 0b11001111011001⟩
          bus := t.bus
          queue := { State.reset.queue with choices := u.queue.choices }
          pending := s.pending } ∧
        (r.inProgress = none → t.bus = ⟨none, none⟩) ∧
        (∀ p, r.inProgress = some p → p.acted = false ∨ p.access.writeStrobe = false ∨ u.bus.cycle = none → t.bus = passed p.access) ∧
        (∀ p c, r.inProgress = some p → p.acted = true → p.access.writeStrobe = true → u.bus.cycle = some c → t.bus = ⟨none, some c⟩) ∧
        t.held = true ∧ t.clock = 0 ∧ (∀ g, t.group g = Group.unconfigured) ∧ (∀ g line, t.lineOn g line = false) ∧
        t.attn = false ∧ t.queue.held = [] ∧ t.store.busy = false) ∧
  ∀ s : State, s.held = true →
    (∀ (c : Instr) (page offset : Nat) (w : BusWrite), writeOf c = some (page, offset, w) →
      exec c s = .next { s with bus := ⟨none, some ⟨true, s.guardedAddress page offset, w.enables, w.data⟩⟩ }) ∧
    (∀ (c : Instr) (page offset : Nat) (e : ByteEnables) (memory : Word), readOf c = some (page, offset, e, memory) →
      exec c s = .next { s with bus := ⟨some memory, some ⟨false, s.guardedAddress page offset, e, 0⟩⟩ }) ∧
    ∀ (word : Fin 9) (w : BusWrite), exec (.refusalLimitReached word w) s = .next s

/-- RESET_END: the whole state the rules give for the end of a reset that leaves none held, the lock flags cleared where a power-on reset
ends with the switch input closed and the freeze clear (R22, R44, R68, R70, R76, R99, R112, R129, R146, R159, R162, R167). The end of one
reset while the other is held, which clears the lock flags and leaves the device held, is the model's choice (notes/assumptions/25.md), and
so are pins that drive nothing as the device leaves reset (28.md). -/
def Obligations.ResetEndPlacesTheDevice : Prop :=
  ∀ (kind : ResetKind) (straps : BitVec 4) (closed : Bool) (s : State),
    let nv : NonVolatile :=
      if kind = .powerOn ∧ closed = true ∧ s.store.nv.freeze = false then { s.store.nv with lockFlags := 0 } else s.store.nv
    (s.powerOnHeld = decide (kind = .powerOn) → s.externalHeld = decide (kind = .external) →
      exec (.resetEnd kind straps closed) s = .next {
        powerOnHeld := false
        externalHeld := false
        clock := 0
        groups := Vector.ofFn fun g =>
          if nv.valid = true ∧ g.val < nv.active.timing.groupCount.toNat then ⟨.flashing, 0, 0, 0, false, false, 65535, 0⟩
          else ⟨.unlit, 0, 0, 0, false, false, 65535, 0⟩
        arbiter := ⟨Vector.replicate 32 65535, 0⟩
        mode := ⟨.startFlash, .reset, false, 0, 0, 0, true, ⟨false, false⟩, ⟨false, false⟩, ⟨false, false⟩⟩
        page := ⟨⟨0, false, false⟩, ⟨0, false, false⟩, ⟨0, false, false⟩, 0, 0⟩
        tap := ⟨straps, if nv.valid then nv.active.levels else 0b11001111011001⟩
        lamps := LampMonitor.atReset
        detectors := ⟨Vector.replicate 48 ⟨.off, 0, 0, 0, 1, 0, 0, false, false, 0, .disabled, 0, 0, 0, 0⟩, 0, 0⟩
        link := SignLink.atReset
        queue := ⟨[], 0, 0, false, 0, 0, [], false, false, s.queue.choices⟩
        store := ⟨nv, if nv.valid then nv.active else Tables.zero, false, .none⟩
        latches := ⟨0, 0, 0, 0, 0, 0, 0, 0, 0, 0⟩
        bus := ⟨none, none⟩
        parts := EventParts.idle
        pending := s.pending }) ∧
    (s.powerOnHeld = true → s.externalHeld = true →
      exec (.resetEnd kind straps closed) s = .next { s with
        powerOnHeld := decide (kind = .external), externalHeld := decide (kind = .powerOn), store := { s.store with nv := nv } })

/-! ### The clock and the lamp lines -/

/-- DECISECOND_EVENT: the clock advances by 1 modulo 2^32, every block's part of the event is due, and a GO line the flasher then drives on
marks the running interval (R1, R2, R102); while a reset is held nothing moves (R1). That the parts are commands of their own, due once from
here on, and that a part of the event before that is still due is lost with what it held back, is the model's choice
(notes/assumptions/1.md), and so is the moment that begins with it (41.md). -/
def Obligations.DecisecondEventAdvancesTheClock : Prop :=
  ∀ s : State,
    (s.held = false → exec .decisecondEvent s = .next { s with
      clock := s.clock + 1
      parts := EventParts.due
      queue := { s.queue with fresh := 0, dropped := [], accessed := false, sampled := false }
      lamps := { s.lamps with goMark := s.lamps.goMark ||| ({ s with clock := s.clock + 1 } : State).goLinesOn } }) ∧
    (s.held = true → exec .decisecondEvent s = .next s)

/-- The common flasher (R2): on while the clock modulo 10 is less than 5, on at clock 0, off for one decisecond before the wrap; every line
driven flashing follows it. -/
def Obligations.FlasherDrivesTheFlashingLines : Prop :=
  ∀ s : State,
    (s.flasher = true ↔ s.clock.toNat % 10 < 5) ∧
    (s.clock = 0 → s.flasher = true) ∧
    (s.clock = 4294967295 → s.flasher = false ∧ ({ s with clock := s.clock + 1 } : State).flasher = true) ∧
    ∀ g line, s.drive g line = .flashing → s.lineOn g line = s.flasher

/-- The lamp-line table (R6): the drive of the STOP, CLEAR and GO line of a configured group by its state, kind and flash aspect; no line of
an unconfigured group, and none at all while a reset is held; steady is on, off is off, flashing follows the flasher. -/
def Obligations.LampLinesFollowTheGroupState : Prop :=
  ∀ (s : State) (g : GroupNo),
    (s.held = true ∨ s.configured g = false → ∀ line, s.drive g line = .off) ∧
    (s.held = false → s.configured g = true →
      (s.drive g .stop, s.drive g .clear, s.drive g .go) =
        match (s.group g).state with
        | .unlit => (.off, .off, .off)
        | .flashing => (if (s.record g).aspect = 2 then .flashing else .off, if (s.record g).aspect = 1 then .flashing else .off, .off)
        | .stop => (.steady, .off, .off)
        | .prepare => (.steady, .steady, .off)
        | .go => (.off, .off, .steady)
        | .clearing => if (s.record g).kind = 1 then (.off, .off, .flashing) else (.off, .steady, .off)) ∧
    (∀ line, (s.drive g line = .off → s.lineOn g line = false) ∧ (s.drive g line = .steady → s.lineOn g line = true) ∧
      (s.drive g line = .flashing → s.lineOn g line = s.flasher))

/-! ### The group sequencer -/

/-- GROUP_SEQUENCER_STEP without an expiry (R10, R11, R12): E advances unless an order of this event set it, the request age while the group
is pending, and the timer of the group's state unless this event started it (R35, R46); an unconfigured group takes no advance (R4). That a
second step of one event is none is the model's choice (notes/assumptions/1.md); that the request age, and the timers and E of entries other
than grants and orders, are held back in the same way is inferred (19.md, DEDUCED). -/
def Obligations.SequencerStepAdvancesTheTimers : Prop :=
  ∀ s : State,
    (s.parts.sequencer = false → exec .groupSequencerStep s = .next s) ∧
    (s.parts.sequencer = true → ∃ t, exec .groupSequencerStep s = .next t ∧
      GroupMove { s with parts := { s.parts with sequencer := false, heldTimers := 0, heldElapsed := 0, heldAges := 0 } } t ∧
      ∀ g,
        (s.configured g = false → t.group g = s.group g) ∧
        (s.configured g = true →
          let x := s.group g
          let e := if s.parts.heldElapsed.getLsbD g.val then x.elapsed else min (x.elapsed + 1) 65535
          let a := if s.isPending g then (if s.parts.heldAges.getLsbD g.val then x.age else min (x.age + 1) 65535) else 0
          (s.parts.heldTimers.getLsbD g.val = true → t.group g = { x with elapsed := e, age := a }) ∧
          (s.parts.heldTimers.getLsbD g.val = false →
            match x.state with
            | .prepare => x.prepareTimer + 1 < s.prepareTime g →
                t.group g = { x with prepareTimer := x.prepareTimer + 1, elapsed := e, age := a }
            | .go => (x.heldStop = false ∨ min (x.goTimer + 1) 65535 < s.minimumGo g) →
                t.group g = { x with goTimer := min (x.goTimer + 1) 65535, elapsed := e, age := a }
            | .clearing => x.clearingTimer + 1 < s.clearingTime g →
                t.group g = { x with clearingTimer := x.clearingTimer + 1, elapsed := e, age := a }
            | _ => t.group g = { x with elapsed := e, age := a })))

/-- PREPARE_EXPIRY (R16): the step in which the prepare-timer reaches P takes the group into GO with a late cancel carried in as the held
stop, clears its call but for a standing one (R123), and reports GROUP_STATE (R8); a group masked by an asserted hold line is truncated on
the report of its entry (R62, R63). GO_TIMER_REACHES_MG and CLEARING_EXPIRY (R18, R19, R20): a held stop is taken when the go-timer reaches
MG, and a CLEARING ends in STOP when the clearing-timer reaches CL, with E advancing on; where that is the last configured group to enter
STOP in ALL_STOP or TO_FLASH, the all-stop or the flash-entry timer starts at 0 and takes its first advance at the next event (R47, R52,
R57). -/
def Obligations.SequencerExpiriesMoveTheGroup : Prop :=
  (∀ (s : State) (g : GroupNo),
      s.parts.sequencer = true → s.configured g = true → (s.group g).state = .prepare →
      s.parts.heldTimers.getLsbD g.val = false → s.parts.heldElapsed.getLsbD g.val = false →
      s.prepareTime g ≤ (s.group g).prepareTimer + 1 →
      ∃ t, exec (.prepareExpiry g) s = .next t ∧ exec .groupSequencerStep s = .next t ∧
        (s.holdsAct = false ∨ s.heldByLine g = false →
          t.group g = ⟨.go, 0, 0, 0, false, (s.group g).lateCancel, min ((s.group g).elapsed + 1) 65535, 0⟩) ∧
        (s.holdsAct = true → s.heldByLine g = true → t.group g = Group.cleared) ∧
        t.detectors.calls.getLsbD g.val = s.standing.getLsbD g.val ∧
        (s.queue.held.length ≤ 64 → Records t.queue s .groupState (subjectOf g.val) (groupDetail .go .prepare))) ∧
  (∀ (s : State) (g : GroupNo),
      s.parts.sequencer = true → s.configured g = true →
      s.parts.heldTimers.getLsbD g.val = false → s.parts.heldElapsed.getLsbD g.val = false →
      ((s.group g).state = .go → (s.group g).heldStop = true → s.minimumGo g ≤ min ((s.group g).goTimer + 1) 65535 →
        ∃ t, exec (.goTimerReachesMg g) s = .next t ∧ exec .groupSequencerStep s = .next t ∧ t.group g = Group.cleared ∧
          (s.queue.held.length ≤ 64 → Records t.queue s .groupState (subjectOf g.val) (groupDetail .clearing .go))) ∧
      ((s.group g).state = .clearing → s.clearingTime g ≤ (s.group g).clearingTimer + 1 →
        ∃ t, exec (.clearingExpiry g) s = .next t ∧ exec .groupSequencerStep s = .next t ∧
          t.group g = Group.stopped (min ((s.group g).elapsed + 1) 65535) ∧
          (s.mode.mode = .allStop ∨ s.mode.mode = .toFlash → s.mode.running = false →
            (∀ j, j ≠ g → s.configured j = true → (s.group j).state = .stop) →
            t.mode = { s.mode with running := true, allStopTimer := 0, flashEntryTimer := 0 } ∧
            t.parts.heldModeTimer = s.parts.modeTimer) ∧
          (s.mode.mode = .allStop ∨ s.mode.mode = .toFlash →
            (∃ j, j ≠ g ∧ s.configured j = true ∧ (t.group j).state ≠ .stop) → t.mode = s.mode) ∧
          (s.queue.held.length ≤ 64 → Records t.queue s .groupState (subjectOf g.val) (groupDetail .stop .clearing))))

/-! ### The release arbiter -/

/-- The wait of a configured group (R25, R26): BLOCKED with any conflicting group in PREPARE or GO; otherwise the largest of what is left of
the intergreens into it, 0 with no conflicting group, at most 255. -/
def Obligations.WaitIsTheLargestTerm : Prop :=
  ∀ (s : State) (i : GroupNo),
    ((∃ j, s.inConflict j i = true ∧ (s.group j).state.active = true) → waitOf s i = 65535) ∧
    ((∀ j, s.inConflict j i = true → (s.group j).state.active = false) →
      (∀ j, s.inConflict j i = true → s.active.intergreenOf j i - (s.group j).elapsed ≤ waitOf s i) ∧
      (waitOf s i = 0 ∨ ∃ j, s.inConflict j i = true ∧ waitOf s i = s.active.intergreenOf j i - (s.group j).elapsed) ∧
      waitOf s i ≤ 255)

/-- EVALUATION reports (R27, R28, R31, R39, R40): the releasable flag of each group by the six conditions; each wait with the reservations
of the walk, 65,535 for an unconfigured group; the lowest-numbered releasable group. -/
def Obligations.EvaluationReportsWaitsAndFlags : Prop :=
  ∀ s : State, s.parts.arbiter = true → ∃ t, exec .evaluation s = .next t ∧
    (∀ i, t.arbiter.releasable.getLsbD i.val = true ↔
      (s.mode.mode = .normal ∧ s.configured i = true ∧ (s.group i).state = .stop ∧ s.requested i = true ∧ s.heldByLine i = false ∧
        (∀ r : SignNo, (s.active.signs.get r).used = true → (s.active.signs.get r).required = true →
          (s.active.signs.get r).boundGroup = some i →
          (s.link.signs.get r).state = .live ∧ (s.link.signs.get r).status.displayFault = false) ∧
        waitOf s i ≤ s.prepareTime i)) ∧
    (∀ i, t.arbiter.waits.get i =
      if s.configured i = false ∨ ∃ j ∈ grantedGroups s, s.inConflict j i = true then 65535 else waitOf s i) ∧
    (t.arbiter.releasable = 0 → t.arbiter.firstReleasable = 0xFFFF) ∧
    (∀ i : GroupNo, t.arbiter.releasable.getLsbD i.val = true → (∀ j : GroupNo, j < i → t.arbiter.releasable.getLsbD j.val = false) →
      t.arbiter.firstReleasable = BitVec.ofNat 16 i.val)

/-- The ranking and the walk (R36, R37): a candidate is granted exactly when no granted group that ranks before it, by greater request age
and then by lower number, is in conflict with it. -/
def Obligations.WalkGrantsUnlessAnEarlierGrantConflicts : Prop :=
  ∀ (s : State) (g : GroupNo),
    g ∈ grantedGroups s ↔
      releasable s g = true ∧
      ∀ j ∈ grantedGroups s, s.inConflict j g = true →
        ¬ ((s.group g).age < (s.group j).age ∨ ((s.group j).age = (s.group g).age ∧ j < g))

/-- EVALUATION grants (R8, R14, R35, R38): a granted group enters PREPARE, or GO where P is 0, with its call cleared but for a standing one;
every other group stands as it did; the grants are handed over in ascending group number, so that where the queue has room each raises its
GROUP_STATE record in that order, as every move of groups does; a step of the same decisecond event that is still due leaves the granted
group's timer at 0, while its E advances (R35). -/
def Obligations.EvaluationMovesTheGrantedGroups : Prop :=
  ∀ s : State, s.parts.arbiter = true → ∃ t, exec .evaluation s = .next t ∧
    GroupMove { s with arbiter := t.arbiter, parts := { s.parts with arbiter := false } } t ∧
    ∀ g,
      (g ∉ grantedGroups s → t.group g = s.group g ∧
        t.parts.heldTimers.getLsbD g.val = s.parts.heldTimers.getLsbD g.val) ∧
      (g ∈ grantedGroups s → s.parts.sequencer = true → t.parts.heldTimers.getLsbD g.val = true) ∧
      t.parts.heldElapsed.getLsbD g.val = s.parts.heldElapsed.getLsbD g.val ∧
      (g ∈ grantedGroups s → 0 < s.prepareTime g → t.group g = ⟨.prepare, 0, 0, 0, false, false, (s.group g).elapsed, 0⟩) ∧
      (g ∈ grantedGroups s → s.prepareTime g = 0 → (s.group g).lateCancel = false →
        t.group g = ⟨.go, 0, 0, 0, false, false, (s.group g).elapsed, 0⟩ ∧
        t.detectors.calls.getLsbD g.val = s.standing.getLsbD g.val)

/-! ### The mode controller -/

/-- MODE_CONTROLLER_STEP (R47, R52, R54, R57, R59, R61), whichever of its five parts are still due. Without an expiry or an edge the mode
timer of the mode advances while it runs, and stands in ALL_STOP and TO_FLASH until the last configured group is in STOP; one started within
this decisecond event takes its first advance at the next (R47); the liveness timer advances in ALL_STOP and NORMAL; a sample equal to a
filtered level leaves it, and the first sample of another level changes nothing but that it has been seen. A step in which an expiry or an
edge falls is that command's own effect with the rest of the step after it, so that the statements of the expiries and the edges give such a
step, one part after another. That each part is taken once for an event is the model's choice (notes/assumptions/1.md), and so is that the
mode timer comes first, then the liveness timer, H0, H1 and the switch (4.md). That a liveness timer started within this event is held back
in the same way is inferred (20.md, DEDUCED). -/
def Obligations.ModeControllerStepAdvancesTheTimers : Prop :=
  ∀ (s : State) (h0 h1 closed : Bool),
    let advances : Bool := s.parts.modeTimer && s.mode.running && !s.parts.heldModeTimer
    let lives : Bool := s.parts.liveness && decide (s.mode.mode = .allStop ∨ s.mode.mode = .normal) && !s.parts.heldLiveness
    let timerQuiet := advances = true →
      (s.mode.mode = .startFlash →
        s.mode.startFlashTimer + 1 < (if s.store.nv.valid then s.active.timing.startFlash.toNat else 100)) ∧
      (s.mode.mode = .allStop → s.mode.allStopTimer + 1 < s.active.timing.allStop.toNat) ∧
      (s.mode.mode = .toFlash → s.mode.flashEntryTimer + 1 < s.active.timing.flashEntry.toNat)
    let livenessQuiet := lives = true → s.page.liveness + 1 < s.active.timing.liveness.toNat
    let quiet := fun (due : Bool) (f : Filter) (x : Bool) => due = true → f.level = x ∨ f.differed = false
    let sampled := fun (due : Bool) (f : Filter) (x : Bool) => if due then (⟨f.level, x != f.level⟩ : Filter) else f
    let steps := exec (.modeControllerStep h0 h1 closed)
    (timerQuiet → livenessQuiet → quiet s.parts.hold0 s.mode.h0 h0 → quiet s.parts.hold1 s.mode.h1 h1 →
      quiet s.parts.switch s.mode.switch closed →
      steps s = .next { s with
        mode := { s.mode with
          startFlashTimer := if advances && decide (s.mode.mode = .startFlash) then s.mode.startFlashTimer + 1 else s.mode.startFlashTimer
          allStopTimer := if advances && decide (s.mode.mode = .allStop) then s.mode.allStopTimer + 1 else s.mode.allStopTimer
          flashEntryTimer := if advances && decide (s.mode.mode = .toFlash) then s.mode.flashEntryTimer + 1 else s.mode.flashEntryTimer
          h0 := sampled s.parts.hold0 s.mode.h0 h0
          h1 := sampled s.parts.hold1 s.mode.h1 h1
          switch := sampled s.parts.switch s.mode.switch closed }
        page := { s.page with liveness := if lives then s.page.liveness + 1 else s.page.liveness }
        parts := { s.parts with
          modeTimer := false, liveness := false, hold0 := false, hold1 := false, switch := false
          heldModeTimer := s.parts.heldModeTimer && !s.parts.modeTimer
          heldLiveness := s.parts.heldLiveness && !s.parts.liveness } }) ∧
    (∀ c u, c = .startFlashExpiry ∨ c = .allStopExpiry ∨ c = .flashEntryTimerExpiry → exec c s = .next u → steps s = steps u) ∧
    (∀ u, timerQuiet → exec .livenessExpiry s = .next u → steps s = steps u) ∧
    (∀ u, timerQuiet → livenessQuiet → exec (.hold 0 h0) s = .next u → steps s = steps u) ∧
    (∀ u, timerQuiet → livenessQuiet → quiet s.parts.hold0 s.mode.h0 h0 → exec (.hold 1 h1) s = .next u → steps s = steps u) ∧
    ∀ u, timerQuiet → livenessQuiet → quiet s.parts.hold0 s.mode.h0 h0 → quiet s.parts.hold1 s.mode.h1 h1 →
      exec (.commissioningSwitchChange closed) s = .next u → steps s = steps u

/-- START_FLASH_EXPIRY (R8, R48, R51, R54, R98): with normal-pending set, a configured device and no commit in progress the mode goes to
ALL_STOP, otherwise to FLASH with cause RESET and no group moved. The refusal count stands at the entry to ALL_STOP and falls to 0 at the
entry to FLASH. The GROUP_STATE records of the orders stand in ascending group number. The all-stop timer starts at that entry exactly where
every configured group is then in STOP (R52). That the liveness timer's first advance is held back, and the request ages of the groups that
the entry moves or finds pending, is inferred (notes/assumptions/20.md and 19.md, DEDUCED). -/
def Obligations.StartFlashExpiryChoosesTheMode : Prop :=
  ∀ s : State,
    s.parts.modeTimer = true → s.parts.heldModeTimer = false → s.mode.running = true → s.mode.mode = .startFlash →
    (if s.store.nv.valid then s.active.timing.startFlash.toNat else 100) ≤ s.mode.startFlashTimer + 1 →
    (s.mode.normalPending = true → s.store.nv.valid = true → s.store.busy = false → ∃ t,
      exec .startFlashExpiry s = .next t ∧ ModeChange { s with parts := { s.parts with modeTimer := false } } t .allStop .software ∧
      t.mode.normalPending = false ∧ t.page = { s.page with liveness := 0 } ∧ t.store = s.store ∧ t.bus = s.bus ∧
      ∀ g, s.configured g = true → t.group g = atAllStop s g) ∧
    (s.mode.normalPending = false ∨ s.store.nv.valid = false ∨ s.store.busy = true → ∃ t,
      exec .startFlashExpiry s = .next t ∧ ModeChange { s with parts := { s.parts with modeTimer := false } } t .flash .reset ∧
      t.mode.normalPending = s.mode.normalPending ∧ t.page = { s.page with liveness := 0, refusals := 0 } ∧ t.store = s.store ∧
      t.bus = s.bus ∧ t.groups = s.groups)

/-- ALL_STOP_EXPIRY and FLASH_ENTRY_TIMER_EXPIRY (R8, R52, R57, R58): ALL_STOP goes to NORMAL with its cause, moving no group that is in
neither PREPARE nor GO; TO_FLASH goes to FLASH with its cause and the refusal count to 0, every configured group into FLASHING with its
timers and flags cleared, E as it stood and age 0, and one already there as it was (R9, R11, R21), with the GROUP_STATE records of those
that move in ascending group number. That the entries hold the request ages back until the next event is inferred (notes/assumptions/19.md,
DEDUCED). -/
def Obligations.AllStopAndFlashEntryTimersExpire : Prop :=
  ∀ s : State,
    s.parts.modeTimer = true → s.parts.heldModeTimer = false → s.mode.running = true →
    (s.mode.mode = .allStop → s.active.timing.allStop.toNat ≤ s.mode.allStopTimer + 1 →
      (∀ g, s.configured g = true → (s.group g).state.active = false) → ∃ t,
      exec .allStopExpiry s = .next t ∧ ModeChange { s with parts := { s.parts with modeTimer := false } } t .normal s.mode.cause ∧
      t.mode.normalPending = s.mode.normalPending ∧ t.page = s.page ∧ t.store = s.store ∧ t.bus = s.bus ∧ t.groups = s.groups) ∧
    (s.mode.mode = .toFlash → s.active.timing.flashEntry.toNat ≤ s.mode.flashEntryTimer + 1 → ∃ t,
      exec .flashEntryTimerExpiry s = .next t ∧
      ModeChange { s with parts := { s.parts with modeTimer := false } } t .flash s.mode.cause ∧
      t.mode.normalPending = s.mode.normalPending ∧ t.page = { s.page with liveness := 0, refusals := 0 } ∧ t.store = s.store ∧
      t.bus = s.bus ∧ ∀ g, s.configured g = true → t.group g = (s.group g).ordered .flashing)

/-- LIVENESS_EXPIRY (R8, R54, R56, R57, R62): TO_FLASH with cause LIVENESS, the timer stopped at 0, LIVENESS_LOSSES up by 1 and saturating,
and every configured group treated as its request had been cleared; the flash-entry timer starts exactly where every configured group is
then in STOP. Its GROUP_STATE records stand in ascending group number, and its LATE_CANCEL and STOP_HELD records among themselves likewise.
That each group's request ends before the hold rule reaches it is inferred (notes/assumptions/21.md, DEDUCED); the order of the LATE_CANCEL
and STOP_HELD records, as R90 gives it for a write, is the model's choice (32.md); so is that the timer and E of a CLEARING entered by a
request cleared, and the request ages, are held back until the next event (19.md, DEDUCED). -/
def Obligations.LivenessExpiryGoesToFlash : Prop :=
  ∀ s : State,
    s.parts.liveness = true → s.parts.heldLiveness = false → (s.mode.mode = .allStop ∨ s.mode.mode = .normal) →
    s.active.timing.liveness.toNat ≤ s.page.liveness + 1 → ∃ t,
      exec .livenessExpiry s = .next t ∧ ModeChange { s with parts := { s.parts with liveness := false } } t .toFlash .liveness ∧
      t.mode.normalPending = s.mode.normalPending ∧ t.page = { s.page with liveness := 0 } ∧ t.bus = s.bus ∧
      t.store = { s.store with nv := { s.store.nv with livenessLosses := min (s.store.nv.livenessLosses + 1) 16777215 } } ∧
      ∀ g, s.configured g = true → t.group g = atToFlash s g

/-- HOLD (R8, R61, R62): at the second sample of a new level the filtered state changes and a HOLD record is raised; an edge to asserted
truncates each masked group in GO and aborts each in PREPARE while the mode is NORMAL or TO_FLASH, and moves none otherwise; what it orders
within a decisecond event keeps its timers and E until the next (R46), and the last entry to STOP in TO_FLASH starts the flash-entry timer
(R57); the GROUP_STATE records of what moves stand in ascending group number, here and below. COMMISSIONING_SWITCH_CHANGE (R59, R60): the
filtered switch changes likewise, with no event; an opening in DARK takes the mode to FLASH with cause SWITCH, every configured group into
FLASHING with its timers and flags cleared, E as it stood and age 0, and one already there as it was (R9, R11, R21); any other change moves
no mode. That the request ages of the groups moved are held back until the next event is inferred (notes/assumptions/19.md, DEDUCED). -/
def Obligations.FilteredEdgesOfHoldLinesAndSwitch : Prop :=
  (∀ (s : State) (line : Fin 2) (level : Bool),
      (if line = 0 then s.parts.hold0 else s.parts.hold1) = true →
      (if line = 0 then s.mode.h0 else s.mode.h1) = ⟨!level, true⟩ →
      ∃ t, exec (.hold line level) s = .next t ∧
        (if line = 0 then t.mode.h0 else t.mode.h1) = ⟨level, false⟩ ∧ t.mode.mode = s.mode.mode ∧
        t.page = s.page ∧ t.store = s.store ∧ t.link = s.link ∧
        GroupMove { s with
          mode := (if line = 0 then { s.mode with h0 := ⟨level, false⟩ } else { s.mode with h1 := ⟨level, false⟩ })
          parts := (if line = 0 then { s.parts with hold0 := false } else { s.parts with hold1 := false }) } t ∧
        (s.queue.held.length ≤ 64 → Records t.queue s .hold (subjectOf line.val) (if level then 1 else 0)) ∧
        (∀ g, level = false ∨ (s.mode.mode ≠ .normal ∧ s.mode.mode ≠ .toFlash) ∨ s.configured g = false → t.group g = s.group g) ∧
        ∀ g, level = true → s.mode.mode = .normal ∨ s.mode.mode = .toFlash → s.configured g = true →
          t.group g =
            if (line = 0 ∧ (s.active.holds.get 0).getLsbD g.val = true) ∨ (line = 1 ∧ (s.active.holds.get 1).getLsbD g.val = true) ∨
                s.heldByLine g = true then
              (match (s.group g).state with
               | .go => Group.cleared
               | .prepare => Group.stopped (s.group g).elapsed
               | _ => s.group g)
            else s.group g) ∧
  (∀ (s : State) (closed : Bool),
      s.parts.switch = true → s.mode.switch = ⟨!closed, true⟩ →
      (closed = true ∨ s.mode.mode ≠ .dark →
        exec (.commissioningSwitchChange closed) s = .next { s with
          mode := { s.mode with switch := ⟨closed, false⟩ }, parts := { s.parts with switch := false } }) ∧
      (closed = false → s.mode.mode = .dark → ∃ t,
        exec (.commissioningSwitchChange closed) s = .next t ∧
        ModeChange { s with
          mode := { s.mode with switch := ⟨false, false⟩ }, parts := { s.parts with switch := false } } t .flash .switch ∧
        t.mode.normalPending = s.mode.normalPending ∧ t.page = { s.page with liveness := 0, refusals := 0 } ∧ t.store = s.store ∧
        t.bus = s.bus ∧ ∀ g, s.configured g = true → t.group g = (s.group g).ordered .flashing))

/-! ### The request page -/

/-- Refused request-page writes below the refusal limit. Above the REQUEST level (R77, R86, R96, R98) a write is refused with LEVEL by a
REFUSED record and counted, with no memory cycle and no change of a mirror, a request or a mode. A mode word refused by its value or by the
mode in force (R49, R91, R92) is forwarded with the requested mode as it stood, its written flag set, recorded with its reason and counted.
That the queue notes the access, so that no two are at one moment, is the model's own (notes/assumptions/41.md). -/
def Obligations.RefusedRequestWritesAreCounted : Prop :=
  (∀ (s : State) (c : Instr) (word : Nat) (w : BusWrite),
      requestWriteOf c = some (word, w) → s.held = false → w.enables.any = true →
      (requiredLevel s.tap.levelMap .request).toNat < w.level.toNat → belowRefusalLimit s →
      exec c s = .next { s with
        page := { s.page with refusals := min (s.page.refusals + 1) 1023 }
        queue := s.queue.atAccess.submit .refused (lowWord s.clock) 0 (refusedDetail .level w.level word)
        bus := ⟨none, none⟩ }) ∧
  (∀ (s : State) (c : Instr) (w : BusWrite),
      modeWordWriteOf c = some w → Taken s (requiredLevel s.tap.levelMap .request) w → belowRefusalLimit s →
      let old := s.page.word8.value
      let v := mergeBytes old w.data w.enables
      let refusedWith := fun reason => exec c s = .next { s with
        page := { s.page with word8 := ⟨old, true, false⟩, refusals := min (s.page.refusals + 1) 1023 }
        queue := s.queue.atAccess.submit .refused (lowWord s.clock) 0 (refusedDetail reason w.level 8)
        bus := ⟨none, some ⟨true, s.guardedAddress 0 8, ⟨true, true⟩, old⟩⟩ }
      (v ≠ 0 → v ≠ 1 → v ≠ 2 → refusedWith .value) ∧
      (v = 1 → s.mode.mode = .startFlash ∨ s.mode.mode = .flash → s.store.nv.valid = false → refusedWith .unconfigured) ∧
      (v = 1 → s.mode.mode = .toFlash ∨ s.mode.mode = .dark → refusedWith .mode) ∧
      (v = 2 → s.mode.mode = .startFlash ∨ s.mode.mode = .allStop ∨ s.mode.mode = .normal → refusedWith .mode) ∧
      (v = 2 → s.mode.mode = .flash → s.mode.switch.level = false → refusedWith .switchOpen))

/-- REFUSAL_LIMIT_REACHED (R8, R55, R86, R92, R98): a refused request-page write that brings the count to a limit other than 0 in ALL_STOP
or NORMAL takes the mode to TO_FLASH with cause REFUSALS and the count to 0; its one REFUSED record stands before the one MODE record; a
mode word refused by value or with MODE is forwarded as it stood; every configured group is treated as its request had been cleared (R56),
then by the hold rule (R62); the flash-entry timer starts at once exactly where every configured group is then in STOP (R57). The
GROUP_STATE records stand in ascending group number, and the LATE_CANCEL and STOP_HELD records among themselves likewise. That each group's
request ends before the hold rule reaches it is inferred (notes/assumptions/21.md, DEDUCED); the order of the LATE_CANCEL and STOP_HELD
records, as R90 gives it for a write, is the model's choice (32.md). It is inferred that the timer and E of a stop a request cleared takes,
and the request ages, are held back until the next event (19.md, DEDUCED). That the queue notes the access, so that no two are at one
moment, is the model's own (notes/assumptions/41.md). -/
def Obligations.RefusalLimitGoesToFlash : Prop :=
  ∀ (s : State) (word : Fin 9) (w : BusWrite),
    s.held = false → w.enables.any = true → s.mode.mode = .allStop ∨ s.mode.mode = .normal →
    s.active.timing.refusalLimit ≠ 0 → s.active.timing.refusalLimit.toNat ≤ min (s.page.refusals + 1) 1023 →
    let v := mergeBytes s.page.word8.value w.data w.enables
    let byLevel := (requiredLevel s.tap.levelMap .request).toNat < w.level.toNat
    let goes := fun (reason : Reason) (t : State) =>
      exec (.refusalLimitReached word w) s = .next t ∧ ModeChange s t .toFlash .refusals ∧
      t.mode.normalPending = s.mode.normalPending ∧ t.page.refusals = 0 ∧ t.page.liveness = 0 ∧ t.store = s.store ∧
      (∀ g, s.configured g = true → t.group g = atToFlash s g) ∧
      (s.queue.held.length ≤ 60 →
        let refused := (EventKind.refused, lowWord s.clock, (0 : Byte), refusedDetail reason w.level word.val)
        let mode := (EventKind.mode, lowWord s.clock, (0xFF : Byte), modeDetail .toFlash s.mode.mode .refusals)
        t.queue.ofBlock .busTap = s.queue.ofBlock .busTap ++ [refused] ∧
        t.queue.ofBlock .modeController = s.queue.ofBlock .modeController ++ [mode] ∧
        ∃ before between after, t.queue.contents = before ++ refused :: between ++ mode :: after ∧
          (s.queue.atAccess.fresh = 0 → s.queue.contents <+: before))
    (byLevel → ∃ t, goes .level t ∧ t.page.word8 = s.page.word8 ∧ t.bus = ⟨none, none⟩) ∧
    (¬byLevel → word = 8 → v ≠ 0 → v ≠ 1 → ∃ t, goes (if v = 2 then .mode else .value) t ∧
      t.page.word8 = ⟨s.page.word8.value, true, false⟩ ∧
      t.bus = ⟨none, some ⟨true, s.guardedAddress 0 8, ⟨true, true⟩, s.page.word8.value⟩⟩)

/-- An accepted mode-word write by the mode in force (R8, R49, R50, R51, R56, R60, R91). FLASH clears normal-pending in START_FLASH and
FLASH, goes to TO_FLASH from ALL_STOP and NORMAL and to FLASH from DARK. NORMAL sets normal-pending in START_FLASH and, with a commit in
progress, in FLASH, and goes from FLASH to ALL_STOP otherwise. DARK goes from FLASH to DARK with the filtered switch closed. Elsewhere an
accepted write changes no mode. A group ordered into FLASHING or UNLIT has its timers and flags cleared, E as it stood and age 0, and one
already there is as it was (R9, R11, R21). The GROUP_STATE records of the orders stand in ascending group number, and the LATE_CANCEL and
STOP_HELD records of TO_FLASH entry among themselves likewise, the order of the latter, as R90 gives it for a write, being the model's
choice (notes/assumptions/32.md). The all-stop or the flash-entry timer starts at the entry exactly where every configured group is then in
STOP (R52, R57), and an order of a decisecond event takes its first advance at the next (R46, R47). That a stop which a request cleared
takes at TO_FLASH entry, and the request ages, are held back in the same way is inferred (notes/assumptions/19.md, DEDUCED), and so are the
liveness timer's first advance at ALL_STOP entry (20.md, DEDUCED) and that each group's request ends before the hold rule reaches it (21.md,
DEDUCED). That the queue notes the access, so that no two are at one moment, is the model's own (notes/assumptions/41.md). -/
def Obligations.AcceptedModeWordsActByMode : Prop :=
  ∀ (s : State) (c : Instr) (w : BusWrite),
    modeWordWriteOf c = some w → Taken s (requiredLevel s.tap.levelMap .request) w →
    let v := mergeBytes s.page.word8.value w.data w.enables
    let a := afterModeWord s v
    (v = 0 →
      (s.mode.mode = .startFlash ∨ s.mode.mode = .flash → exec c s = .next { a with mode := { s.mode with normalPending := false } }) ∧
      (s.mode.mode = .toFlash ∨ s.mode.mode = .faultFlash → exec c s = .next a) ∧
      (s.mode.mode = .allStop ∨ s.mode.mode = .normal → ∃ t, exec c s = .next t ∧ ModeChange s t .toFlash .software ∧
        t.mode.normalPending = s.mode.normalPending ∧ t.page = { a.page with liveness := 0 } ∧ t.bus = a.bus ∧ t.store = s.store ∧
        ∀ g, s.configured g = true → t.group g = atToFlash s g) ∧
      (s.mode.mode = .dark → ∃ t, exec c s = .next t ∧ ModeChange s t .flash .software ∧
        t.mode.normalPending = s.mode.normalPending ∧ t.page = { a.page with liveness := 0, refusals := 0 } ∧ t.bus = a.bus ∧
        t.store = s.store ∧ ∀ g, s.configured g = true → t.group g = (s.group g).ordered .flashing)) ∧
    (v = 1 →
      (s.store.nv.valid = true → s.mode.mode = .startFlash ∨ (s.mode.mode = .flash ∧ s.store.busy = true) →
        exec c s = .next { a with mode := { s.mode with normalPending := true } }) ∧
      (s.mode.mode = .allStop ∨ s.mode.mode = .normal ∨ s.mode.mode = .faultFlash → exec c s = .next a) ∧
      (s.store.nv.valid = true → s.mode.mode = .flash → s.store.busy = false → ∃ t, exec c s = .next t ∧
        ModeChange s t .allStop .software ∧ t.mode.normalPending = s.mode.normalPending ∧
        t.page = { a.page with liveness := 0 } ∧ t.bus = a.bus ∧ t.store = s.store ∧
        ∀ g, s.configured g = true → t.group g = atAllStop s g)) ∧
    (v = 2 →
      (s.mode.mode = .toFlash ∨ s.mode.mode = .dark ∨ s.mode.mode = .faultFlash → exec c s = .next a) ∧
      (s.mode.mode = .flash → s.mode.switch.level = true → ∃ t, exec c s = .next t ∧ ModeChange s t .dark .software ∧
        t.mode.normalPending = false ∧ t.page = { a.page with liveness := 0 } ∧ t.bus = a.bus ∧ t.store = s.store ∧
        ∀ g, s.configured g = true → t.group g = (s.group g).ordered .unlit))

/-- GO_MASK_WRITE, SET_ALIAS, CLEAR_ALIAS and TOGGLE_ALIAS (R85, R87, R88, R89, R97, R98): the merged or combined word, cleared of every
unconfigured group's bit, is forwarded with both bytes enabled to the base word and mirrored, and the write is accepted. Its changes are
handed to the groups (R13, R15, R17, R56, R90): each configured group whose bit changes takes its request set or cleared by its state, with
STOP_HELD, LATE_CANCEL or GROUP_STATE; the GROUP_STATE records stand in ascending group number (R8), and the other two kinds together
likewise (R90); every other group, and every group in TO_FLASH, is left as it was. That a stop taken so within a decisecond event keeps its
timer and E until the next, and that a group's request age is held back likewise, is inferred (notes/assumptions/19.md, DEDUCED). -/
def Obligations.MaskWritesForwardAndHandTheChanges : Prop :=
  (∀ (s : State) (c : Instr) (word : Nat) (w : BusWrite),
      maskWriteOf c = some (word, w) → Taken s (requiredLevel s.tap.levelMap .request) w →
      let old := if word % 2 = 0 then s.page.word0.value else s.page.word1.value
      let d := mergeBytes 0 w.data w.enables
      let raw := if word < 2 then mergeBytes old w.data w.enables else if word < 4 then old ||| d
        else if word < 6 then old &&& ~~~d else old ^^^ d
      ∃ v : Word,
        (∀ k, k < 16 → v.getLsbD k =
          (raw.getLsbD k && s.store.nv.valid && decide (16 * (word % 2) + k < s.active.timing.groupCount.toNat))) ∧
        ∃ t, exec c s = .next t ∧
          GroupMove { s with
            page := { s.page with
              word0 := if word % 2 = 0 then ⟨v, true, false⟩ else s.page.word0
              word1 := if word % 2 = 0 then s.page.word1 else ⟨v, true, false⟩
              refusals := 0
              liveness := if s.mode.mode = .allStop ∨ s.mode.mode = .normal then 0 else s.page.liveness }
            bus := ⟨none, some ⟨true, s.guardedAddress 0 (word % 2), ⟨true, true⟩, v⟩⟩ } t) ∧
  (∀ (s : State) (c : Instr) (word : Nat) (w : BusWrite),
      maskWriteOf c = some (word, w) → Taken s (requiredLevel s.tap.levelMap .request) w →
      ∃ t, exec c s = .next t ∧ ∀ g : GroupNo,
        let was := s.goMask.getLsbD g.val
        let is := t.goMask.getLsbD g.val
        (s.mode.mode = .toFlash ∨ is = was ∨ s.configured g = false → t.group g = s.group g) ∧
        (s.mode.mode ≠ .toFlash → s.configured g = true → was = false → is = true → t.group g = afterSet (s.group g)) ∧
        (s.mode.mode ≠ .toFlash → s.configured g = true → was ≠ is → (s.group g).state = .stop →
          t.parts.heldAges.getLsbD g.val = (s.parts.heldAges.getLsbD g.val || s.parts.sequencer)) ∧
        (s.mode.mode ≠ .toFlash → s.configured g = true → was = true → is = false →
          t.group g = afterCleared s g (s.group g) ∧
          (s.queue.held.length ≤ 64 →
            ((s.group g).state = .prepare →
              Records t.queue s .lateCancel (subjectOf g.val) (BitVec.ofNat 16 (s.prepareTime g - (s.group g).prepareTimer))) ∧
            ((s.group g).state = .go → (s.group g).goTimer < s.minimumGo g →
              Records t.queue s .stopHeld (subjectOf g.val) (BitVec.ofNat 16 (s.minimumGo g - (s.group g).goTimer))) ∧
            ((s.group g).state = .go → s.minimumGo g ≤ (s.group g).goTimer →
              Records t.queue s .groupState (subjectOf g.val) (groupDetail .clearing .go))))) ∧
  (∀ (s : State) (c : Instr) (word : Nat) (w : BusWrite),
      maskWriteOf c = some (word, w) → Taken s (requiredLevel s.tap.levelMap .request) w → s.queue.held.length ≤ 64 →
      ∃ t, exec c s = .next t ∧
        t.queue.requestRecords = s.queue.requestRecords ++ if s.mode.mode = .toFlash then []
          else clearRecords s fun g => s.goMask.getLsbD g.val && !t.goMask.getLsbD g.val)

/-- REQUEST_BASE_READ (R78, R83, R93, R94, R95): 0 above the level; the base word's mirror for an alias, and for a base word not written
since the reset, with no memory cycle; otherwise memory's word where it equals the mirror, and the mirror where it differs, the first
difference recorded as MIRROR_MISMATCH. That the memory cycle carries the processor's byte enables is the model's choice
(notes/assumptions/33.md). That the queue notes the access, so that no two are at one moment, is the model's own (notes/assumptions/41.md).
-/
def Obligations.RequestPageReadsStandByTheMirror : Prop :=
  ∀ (s : State) (word : Fin 9) (e : ByteEnables) (level : Level) (memory : Word),
    s.held = false →
    let m : MirrorWord := if word = 8 then s.page.word8 else if word.val % 2 = 0 then s.page.word0 else s.page.word1
    let answers := fun (v : Word) => exec (.requestBaseRead word e level memory) s = .next { s with queue := s.queue.atAccess, bus := ⟨some v, none⟩ }
    let cycle : MemoryCycle := ⟨false, s.guardedAddress 0 word.val, e, 0⟩
    let passes := level.toNat ≤ (requiredLevel s.tap.levelMap .request).toNat
    (¬passes → answers 0) ∧
    (passes → 2 ≤ word.val → word.val < 8 → answers m.value) ∧
    (passes → word.val < 2 ∨ word = 8 → m.written = false → answers m.value) ∧
    (passes → word.val < 2 ∨ word = 8 → m.written = true →
      (memory = m.value → exec (.requestBaseRead word e level memory) s = .next { s with
          queue := s.queue.atAccess, bus := ⟨some memory, some cycle⟩ }) ∧
      (memory ≠ m.value → m.mismatch = true →
        exec (.requestBaseRead word e level memory) s = .next { s with
          queue := s.queue.atAccess, bus := ⟨some m.value, some cycle⟩ }) ∧
      (memory ≠ m.value → m.mismatch = false →
        exec (.requestBaseRead word e level memory) s = .next { s with
          page := (let m' : MirrorWord := { m with mismatch := true }
            { s.page with
              word0 := if word = 0 then m' else s.page.word0
              word1 := if word = 1 then m' else s.page.word1
              word8 := if word = 8 then m' else s.page.word8 })
          queue := s.queue.atAccess.submit .mirrorMismatch (lowWord s.clock) (BitVec.ofNat 8 word.val) memory
          bus := ⟨some m.value, some cycle⟩ }))

/-! ### The lamp monitor -/

/-- LAMP_SAMPLE (R100, R101, R102): the sample and the running interval's mark enter the six-deep windows and a new interval begins; a sense
is stretched on while any sample of its window is on, and commanded-GO is on while any interval of its window is marked. That a sample whose
part of the event is not due changes nothing is the model's choice (notes/assumptions/1.md); that the new interval begins once the sample is
taken whole, its own fault entry included, marked for each GO line then on, is inferred (16.md, DEDUCED). -/
def Obligations.LampSampleEntersTheWindows : Prop :=
  ∀ (s : State) (x : SenseSample),
    (s.parts.lamps = false → exec (.lampSample x) s = .next s) ∧
    (s.parts.lamps = true → ∃ t, exec (.lampSample x) s = .next t ∧
      t.lamps.samples = (x :: s.lamps.samples).take 6 ∧ t.lamps.goIntervals = (s.lamps.goMark :: s.lamps.goIntervals).take 6 ∧
      t.lamps.goMark = t.goLinesOn ∧ t.parts.lamps = false ∧
      (∀ (line : Line) (g : GroupNo),
        (t.lamps.stretched line).getLsbD g.val = true ↔ ∃ y ∈ t.lamps.samples, (senseLine y line).getLsbD g.val = true) ∧
      ∀ g : GroupNo, t.lamps.commandedGo.getLsbD g.val = true ↔ ∃ m ∈ t.lamps.goIntervals, m.getLsbD g.val = true)

/-- The runs of a sample (R103 to R108): a run advances by 1, saturating at 255, where its check applies and finds its discrepancy, and is 0
otherwise with its mark clear; a mark is set where the run acts, at PD or more, and the sample that newly sets it declares the fault. -/
def Obligations.LampRunsCountTheDiscrepancies : Prop :=
  ∀ (s : State) (x : SenseSample), s.parts.lamps = true → ∃ t, exec (.lampSample x) s = .next t ∧
    let pd := s.active.timing.provingDelay.toNat
    let on := fun (g : GroupNo) (line : Line) => (t.lamps.stretched line).getLsbD g.val = true
    let proved := fun (g : GroupNo) => s.configured g = true ∧ (s.record g).proving = true
    let lampMode := s.mode.mode = .allStop ∨ s.mode.mode = .normal ∨ s.mode.mode = .toFlash
    let count := fun (found : Prop) (n m : Nat) => (found → m = min (n + 1) 255) ∧ (¬found → m = 0)
    let marks := fun (found acts : Prop) (declared : Bool) (was now : Run) =>
      count found was.count now.count ∧ (now.mark = true ↔ found ∧ (was.mark = true ∨ (acts ∧ pd ≤ now.count))) ∧
      (acts → (declared = true ↔ was.mark = false ∧ now.mark = true))
    (∀ j i : GroupNo, marks
      (j < i ∧ proved j ∧ proved i ∧ s.active.conflictBit j i = true ∧ on j .go ∧ on i .go) True
      (conflictDeclared (reading x s) j i) ((s.lamps.conflictRuns.get j).get i) ((t.lamps.conflictRuns.get j).get i)) ∧
    ∀ g : GroupNo,
      marks (proved g ∧ on g .go ∧ t.lamps.commandedGo.getLsbD g.val = false) True
        (uncommandedDeclared (reading x s) g) (s.lamps.uncommandedRuns.get g) (t.lamps.uncommandedRuns.get g) ∧
      marks (proved g ∧ lampMode ∧ s.drive g .stop = .steady ∧ ¬on g .stop) ((s.record g).redundant = false)
        (redOutDeclared (reading x s) g) (s.lamps.stopOutRuns.get g) (t.lamps.stopOutRuns.get g) ∧
      count (proved g ∧ lampMode ∧ s.drive g .clear = .steady ∧ ¬on g .clear)
        (s.lamps.clearOutRuns.get g) (t.lamps.clearOutRuns.get g) ∧
      count (proved g ∧ lampMode ∧ s.drive g .go = .steady ∧ ¬on g .go) (s.lamps.goOutRuns.get g) (t.lamps.goOutRuns.get g)

/-- CONFLICT, UNCOMMANDED_GO and RED_OUT (R64, R65, R66, R104 to R107, R110): a run at PD or more with its mark clear is declared at the
sample. Outside FAULT_FLASH the first declaration, in the order CONFLICT, UNCOMMANDED_GO, RED_OUT, takes the mode there with cause FAULT,
every configured group into FLASHING, normal-pending clear, FAULT_ENTRIES up by 1 and saturating, and is the one recorded: the LAMP_FAIL
records of the sample, then its FAULT record before the MODE record, then one latched FAULT record for each later declaration, in order, and
the GROUP_STATE records in ascending group number, which stand anywhere among them (R64, R148). In FAULT_FLASH no RED_OUT is declared, and a
declaration changes no mode, group, last fault record or counter and raises a latched FAULT record. A sample that declares nothing changes
no mode, group or counter. That the command of a declaration which the sample does not hold is no event is inferred
(notes/assumptions/7.md). -/
def Obligations.DeclarationsEnterFaultFlashOnce : Prop :=
  ∀ (s : State) (x : SenseSample), s.parts.lamps = true → ∃ t, exec (.lampSample x) s = .next t ∧
    let r := reading x s
    let decls := declarations r
    let pd := s.active.timing.provingDelay.toNat
    let proved := fun (g : GroupNo) => s.configured g = true ∧ (s.record g).proving = true
    let samples := (x :: s.lamps.samples).take 6
    let intervals := (s.lamps.goMark :: s.lamps.goIntervals).take 6
    let on := fun (g : GroupNo) (line : Line) => ∃ y ∈ samples, (senseLine y line).getLsbD g.val = true
    let commanded := fun (g : GroupNo) => ∃ m ∈ intervals, m.getLsbD g.val = true
    let due := fun (run : Run) => run.mark = false ∧ pd ≤ min (run.count + 1) 255
    let lampMode := s.mode.mode = .allStop ∨ s.mode.mode = .normal ∨ s.mode.mode = .toFlash
    let conflict := fun (j i : GroupNo) => j < i ∧ proved j ∧ proved i ∧ s.active.conflictBit j i = true ∧ on j .go ∧ on i .go ∧
      due ((s.lamps.conflictRuns.get j).get i)
    let uncommanded := fun (g : GroupNo) => proved g ∧ on g .go ∧ ¬commanded g ∧
      due (s.lamps.uncommandedRuns.get g)
    let redOut := fun (g : GroupNo) => proved g ∧ lampMode ∧ s.drive g .stop = .steady ∧ ¬on g .stop ∧ (s.record g).redundant = false ∧
      due (s.lamps.stopOutRuns.get g)
    let fault := fun (latched : Bool) (d : FaultCause × Byte × Byte) =>
      (EventKind.fault, lowWord s.clock, d.2.1, faultDetail d.1 d.2.2 latched)
    let stands := t.mode = s.mode ∧ t.groups = s.groups ∧ t.store = s.store ∧ t.page = s.page
    (∀ j i, (conflict j i → (FaultCause.conflict, subjectOf j.val, subjectOf i.val) ∈ decls ∧ exec (.conflict j i x) s = .next t) ∧
      (¬conflict j i → exec (.conflict j i x) s = .next s)) ∧
    (∀ g, (uncommanded g → (FaultCause.uncommandedGo, subjectOf g.val, 0xFF) ∈ decls ∧ exec (.uncommandedGo g x) s = .next t) ∧
      (¬uncommanded g → exec (.uncommandedGo g x) s = .next s)) ∧
    (∀ g, (redOut g → (FaultCause.redOut, subjectOf g.val, 0xFF) ∈ decls ∧ exec (.redOut g x) s = .next t) ∧
      (¬redOut g → exec (.redOut g x) s = .next s)) ∧
    (∀ d ∈ decls, (∃ j i, conflict j i ∧ d = (.conflict, subjectOf j.val, subjectOf i.val)) ∨
      (∃ g, uncommanded g ∧ d = (.uncommandedGo, subjectOf g.val, 0xFF)) ∨ ∃ g, redOut g ∧ d = (.redOut, subjectOf g.val, 0xFF)) ∧
    (decls = [] → stands) ∧
    (s.mode.mode = .faultFlash → stands ∧ (∀ g, ¬redOut g) ∧
      (s.queue.held.length + decls.length ≤ 128 →
        t.queue.ofBlock .modeController = s.queue.ofBlock .modeController ++ decls.map (fault true) ∧
        (s.queue.fresh = 0 → t.queue.contents = s.queue.contents ++ decls.map (fault true)))) ∧
    (s.mode.mode ≠ .faultFlash → ∀ (cause : FaultCause) (first second : Byte) (later : List (FaultCause × Byte × Byte)),
      decls = (cause, first, second) :: later →
      t.mode = { s.mode with
        mode := .faultFlash, cause := .fault, normalPending := false, startFlashTimer := 0, allStopTimer := 0, flashEntryTimer := 0
        running := false } ∧
      t.store = { s.store with nv := { s.store.nv with
        lastFault := ⟨some cause, first, second, s.clock, s.mode.mode⟩
        faultEntries := min (s.store.nv.faultEntries + 1) 16777215 } } ∧
      t.page = { s.page with liveness := 0 } ∧
      (∀ g, s.configured g = true → (t.group g).state = .flashing ∧
        ((s.group g).state ≠ .flashing → t.group g = ⟨.flashing, 0, 0, 0, false, false, (s.group g).elapsed, 0⟩) ∧
        ((s.group g).state = .flashing → t.group g = s.group g)) ∧
      (∀ g, s.configured g = false → t.group g = s.group g) ∧ HeldBack s t false ∧ t.parts.heldModeTimer = false ∧ t.attn = !s.held ∧
      (s.queue.held.length + (lampReports r).length + 33 + decls.length ≤ 128 →
        let reports := (lampReports r).map fun p =>
          (EventKind.lampFail, lowWord s.clock, subjectOf p.1.val, lampFailDetail p.2 (s.group p.1).state)
        let faults := fault false (cause, first, second) ::
          (EventKind.mode, lowWord s.clock, 0xFF, modeDetail .faultFlash s.mode.mode .fault) :: later.map (fault true)
        let moves := ((List.finRange 32).filter fun g => s.configured g = true ∧ (s.group g).state ≠ .flashing).map fun g =>
          (EventKind.groupState, lowWord s.clock, subjectOf g.val, groupDetail .flashing (s.group g).state)
        t.queue.ofBlock .lampMonitor = s.queue.ofBlock .lampMonitor ++ reports ∧
        t.queue.ofBlock .modeController = s.queue.ofBlock .modeController ++ faults ∧
        t.queue.ofBlock .groupSequencer = s.queue.ofBlock .groupSequencer ++ moves ∧
        (∀ b, b ≠ .lampMonitor → b ≠ .modeController → b ≠ .groupSequencer → t.queue.ofBlock b = s.queue.ofBlock b) ∧
        (s.queue.fresh = 0 → ∃ new, t.queue.contents = s.queue.contents ++ new ∧
          new.filter (fun n => n.1.block = .lampMonitor ∨ n.1.block = .modeController) = reports ++ faults ∧
          new.filter (fun n => ¬(n.1.block = .lampMonitor ∨ n.1.block = .modeController)) = moves)))

/-- LAMP_FAIL (R107, R108, R109): a proved group's line driven steady in ALL_STOP, NORMAL or TO_FLASH and dark for PD samples is reported at
the sample where its flag is clear, for STOP where red is redundant: one record that holds the line and the group's state, and the flag is
set. Where the flag is already set, or the line does not fail, no record of the line is submitted; the flag falls at a raw sample that is
on. That the command of a report which the sample does not hold is no event is inferred (notes/assumptions/7.md). -/
def Obligations.LampFailIsReportedOnce : Prop :=
  ∀ (s : State) (x : SenseSample) (g : GroupNo) (line : Line), s.parts.lamps = true →
    let was := if line = .stop then (s.lamps.stopOutRuns.get g).count
      else if line = .clear then s.lamps.clearOutRuns.get g else s.lamps.goOutRuns.get g
    let failing := s.configured g = true ∧ (s.record g).proving = true ∧
      (s.mode.mode = .allStop ∨ s.mode.mode = .normal ∨ s.mode.mode = .toFlash) ∧ s.drive g line = .steady ∧
      (∀ y ∈ (x :: s.lamps.samples).take 6, (senseLine y line).getLsbD g.val = false) ∧ s.active.timing.provingDelay.toNat ≤ min (was + 1) 255 ∧
      (line = .stop → (s.record g).redundant = true)
    let reported := failing ∧ (s.lamps.failed line).getLsbD g.val = false
    let ofLine := fun (q : Queue) => q.contents.filter fun n =>
      n.1 = .lampFail ∧ n.2.2.1 = subjectOf g.val ∧ n.2.2.2.extractLsb' 0 8 = BitVec.ofNat 8 (lineCode line)
    ∃ t, exec (.lampSample x) s = .next t ∧
      (failing → (t.lamps.failed line).getLsbD g.val = true) ∧
      (¬failing → (t.lamps.failed line).getLsbD g.val =
        ((s.lamps.failed line).getLsbD g.val && !(senseLine x line).getLsbD g.val && s.configured g && (s.record g).proving)) ∧
      (reported → exec (.lampFail g line x) s = .next t ∧
        (s.queue.held.length ≤ 31 → ofLine t.queue = ofLine s.queue ++
          [(.lampFail, lowWord s.clock, subjectOf g.val, lampFailDetail line (s.group g).state)])) ∧
      (¬reported → exec (.lampFail g line x) s = .next s ∧
        (s.queue.held.length ≤ 31 ∨ s.queue.fresh = 0 → ofLine t.queue = ofLine s.queue))

/-! ### The detector unit -/

/-- DETECTOR_SAMPLE (R115, R116): the raw input of every detector is taken; with a kind other than OFF the run of samples that differ from
the filtered level advances or falls to 0, and the level changes when the run exceeds the filter of its direction. Nothing but detectors,
call bits and records changes. The records stand in ascending number of the detectors, DET_RECOVER before the record of its activation
(R128); those of a second sample at one moment follow all that was submitted before, since samples are a millisecond apart, and the moment
is the model's own (notes/assumptions/41.md). -/
def Obligations.DetectorSampleFiltersTheInputs : Prop :=
  ∀ (s : State) (inputs : BitVec 48),
    (s.held = true → exec (.detectorSample inputs) s = .next s) ∧
    (s.held = false → ∃ t, exec (.detectorSample inputs) s = .next t ∧
      t = { s with queue := t.queue, detectors := { s.detectors with detectors := t.detectors.detectors, calls := t.detectors.calls } } ∧
      t.queue.sampled = true ∧ (s.queue.sampled = true → s.queue.held <+: t.queue.held) ∧
      (s.queue.held.length ≤ 32 → ∃ new, t.queue.ofBlock .detectorUnit = s.queue.ofBlock .detectorUnit ++ new ∧
        (∀ b, b ≠ .detectorUnit → t.queue.ofBlock b = s.queue.ofBlock b) ∧
        new.Pairwise fun x y => x.2.2.1.toNat < y.2.2.1.toNat ∨ (x.2.2.1 = y.2.2.1 ∧ x.1 = .detRecover)) ∧
      ∀ d, let v := s.detector d
        let x := inputs.getLsbD d.val
        (v.kind = .off → t.detector d = { v with raw := x }) ∧
        (v.kind ≠ .off → x = v.level → t.detector d = { v with raw := x, run := 0 }) ∧
        (v.kind ≠ .off → x ≠ v.level → v.run + 1 ≤ (if v.level then v.offFilter else v.onFilter).toNat →
          t.detector d = { v with raw := x, run := v.run + 1 }) ∧
        (v.kind ≠ .off → x ≠ v.level → (if v.level then v.offFilter else v.onFilter).toNat < v.run + 1 →
          (t.detector d).raw = x ∧ (t.detector d).level = x ∧ (t.detector d).run = 0))

/-- ACTIVATION and DET_COUNT (R117, R118, R119, R121, R122): the total rises and the gap timer falls to 0; from FREE and, after its
recovery, from FAULTED_OFF the detector is OCCUPIED, counted if it is a COUNT detector, with the record of its kind and the calls of the
configured mapped groups that are not in GO; no call bit falls. -/
def Obligations.ActivationActsByKindAndState : Prop :=
  ∀ (s : State) (d : DetectorNo) (inputs : BitVec 48),
    let v := s.detector d
    s.held = false → v.kind ≠ .off → v.level = false → inputs.getLsbD d.val = true → v.onFilter.toNat < v.run + 1 →
    ∃ t, exec (.activation d inputs) s = .next t ∧ exec (.detectorSample inputs) s = .next t ∧
      let u : Detector := { v with raw := true, level := true, run := 0, total := v.total + 1, gap := 0 }
      let o : Detector := { u with state := .occupied, occupancy := 0 }
      (v.state ≠ .free → v.state ≠ .faultedOff → t.detector d = u) ∧
      (v.state = .free ∨ v.state = .faultedOff →
        (v.kind = .presence ∨ v.kind = .pulse →
          t.detector d = o ∧
          (∀ g : GroupNo, v.callMask.getLsbD g.val = true → s.configured g = true → (s.group g).state ≠ .go →
            t.detectors.calls.getLsbD g.val = true) ∧
          (s.queue.held.length ≤ 32 →
            Records t.queue s (if v.kind = .presence then .detOccupied else .detPulse) (subjectOf d.val) 0)) ∧
        (v.kind = .count → v.accumulator + 1 < v.prescale.toNat → t.detector d = { o with accumulator := v.accumulator + 1 }) ∧
        (v.kind = .count → v.prescale.toNat ≤ v.accumulator + 1 →
          t.detector d = { o with accumulator := 0 } ∧ exec (.detCount d inputs) s = .next t ∧
          (s.queue.held.length ≤ 32 → Records t.queue s .detCount (subjectOf d.val) (lowWord (v.total + 1)))) ∧
        (v.state = .faultedOff → s.queue.held.length ≤ 32 → Records t.queue s .detRecover (subjectOf d.val) 2)) ∧
      (∀ g : GroupNo, s.detectors.calls.getLsbD g.val = true → t.detectors.calls.getLsbD g.val = true) ∧
      (∀ g : GroupNo, (s.group g).state = .go ∨ s.configured g = false →
        t.detectors.calls.getLsbD g.val = s.detectors.calls.getLsbD g.val)

/-- DEACTIVATION (R117, R121): from OCCUPIED the detector is FREE, a PRESENCE detector reporting the occupancy that has ended; from
FAULTED_ON it recovers to FREE with the gap timer at 0 and a DET_RECOVER record; the call bits it holds stand. -/
def Obligations.DeactivationActsByKindAndState : Prop :=
  ∀ (s : State) (d : DetectorNo) (inputs : BitVec 48),
    let v := s.detector d
    s.held = false → v.kind ≠ .off → v.level = true → inputs.getLsbD d.val = false → v.offFilter.toNat < v.run + 1 →
    ∃ t, exec (.deactivation d inputs) s = .next t ∧ exec (.detectorSample inputs) s = .next t ∧
      let u : Detector := { v with raw := false, level := false, run := 0 }
      (v.state = .occupied → t.detector d = { u with state := .free } ∧
        (v.kind = .presence → s.queue.held.length ≤ 32 →
          Records t.queue s .detFree (subjectOf d.val) (BitVec.ofNat 16 (min v.occupancy 65535)))) ∧
      (v.state = .faultedOn → t.detector d = { u with state := .free, gap := 0 } ∧
        (s.queue.held.length ≤ 32 → Records t.queue s .detRecover (subjectOf d.val) 1)) ∧
      (v.state ≠ .occupied → v.state ≠ .faultedOn → t.detector d = u) ∧
      (∀ g : GroupNo, s.detectors.calls.getLsbD g.val = true → t.detectors.calls.getLsbD g.val = true)

/-- DETECTOR_STEP, STUCK_ON and STUCK_OFF (R119, R120, R123): the occupancy timer advances in OCCUPIED and the gap timer in FREE and
OCCUPIED, saturating at 153,001; at limit × 600 + 1 a limit other than 0 faults the detector, with DET_FAULT and the standing calls of a
PRESENCE or PULSE detector on every configured mapped group. That a step whose part of the event is not due changes nothing is the model's
choice (notes/assumptions/1.md). -/
def Obligations.DetectorStepFindsStuckDetectors : Prop :=
  ∀ s : State,
    (s.parts.detectors = false → exec .detectorStep s = .next s) ∧
    (s.parts.detectors = true → ∃ t, exec .detectorStep s = .next t ∧
      t = { s with queue := t.queue, parts := { s.parts with detectors := false }
                   detectors := { s.detectors with detectors := t.detectors.detectors, calls := t.detectors.calls } } ∧
      ∀ d, let v := s.detector d
        let u : Detector := { v with
          occupancy := if v.state = .occupied then min (v.occupancy + 1) 153001 else v.occupancy
          gap := if v.state = .free ∨ v.state = .occupied then min (v.gap + 1) 153001 else v.gap }
        let called := ∀ g : GroupNo, v.kind = .presence ∨ v.kind = .pulse → v.callMask.getLsbD g.val = true →
          s.configured g = true → t.detectors.calls.getLsbD g.val = true
        let on := v.state = .occupied ∧ v.stuckOn ≠ 0 ∧ v.stuckOn.toNat * 600 + 1 ≤ u.occupancy
        let off := v.state = .free ∧ v.stuckOff ≠ 0 ∧ v.stuckOff.toNat * 600 + 1 ≤ u.gap
        (¬on → ¬off → t.detector d = u) ∧
        (on → t.detector d = { u with state := .faultedOn } ∧ called ∧ exec (.stuckOn d) s = .next t ∧
          (s.queue.held.length ≤ 80 → Records t.queue s .detFault (subjectOf d.val) 1)) ∧
        (off → t.detector d = { u with state := .faultedOff } ∧ called ∧ exec (.stuckOff d) s = .next t ∧
          (s.queue.held.length ≤ 80 → Records t.queue s .detFault (subjectOf d.val) 2)))

/-! ### The sign link -/

/-- FRAME_EVENT (R136, R138): with a used record a frame begins with its SEQ, POLL and COUNT fixed; the sequence number advances; POLL is 0
in the first frame event after a reset and otherwise the next used address above the cursor, wrapping to the smallest, which the cursor and
the poll in flight take; with no used record nothing is sent. -/
def Obligations.FrameEventBeginsTheFrame : Prop :=
  ∀ s : State, s.parts.signs = true → s.link.poll = none →
    let used := fun (r : SignNo) => s.store.nv.valid = true ∧ (s.active.signs.get r).used = true
    let address := fun (r : SignNo) => (s.active.signs.get r).address
    ((∀ r, ¬used r) → exec .frameEvent s = .next { s with
      parts := { s.parts with signs := false }
      link := { s.link with firstFrame := false, frame := none, line := [], windowOpen := false } }) ∧
    (∀ (n : Nat), (∃ r, used r) →
      (∀ r, used r → (s.active.signs.get r).start.toNat + (s.active.signs.get r).span.toNat ≤ n) →
      (∃ r, used r ∧ (s.active.signs.get r).start.toNat + (s.active.signs.get r).span.toNat = n) →
      (s.link.firstFrame = true → exec .frameEvent s = .next { s with
        parts := { s.parts with signs := false }
        link := { s.link with
          sequence := s.link.sequence + 1, firstFrame := false, windowOpen := false
          frame := some ⟨s.link.sequence, 0, n⟩, line := [0xC3, s.link.sequence, 0, BitVec.ofNat 8 n] } }) ∧
      ∀ r, s.link.firstFrame = false → used r → (∀ q, q < r → used q → address q ≠ address r) →
        ((s.link.cursor.toNat < (address r).toNat ∧
            (∀ q, used q → s.link.cursor.toNat < (address q).toNat → (address r).toNat ≤ (address q).toNat)) ∨
          ((∀ q, used q → (address q).toNat ≤ s.link.cursor.toNat) ∧ (∀ q, used q → (address r).toNat ≤ (address q).toNat))) →
        exec .frameEvent s = .next { s with
          parts := { s.parts with signs := false }
          link := { s.link with
            sequence := s.link.sequence + 1, cursor := address r, windowOpen := false, firstFrame := false
            poll := some ⟨r, address r, s.link.sequence, false⟩
            frame := some ⟨s.link.sequence, address r, n⟩, line := [0xC3, s.link.sequence, address r, BitVec.ofNat 8 n] } })

/-- CHANNEL_BYTE_START (R132, R133, R134): the next channel byte of the frame is the safe value for a channel in the span of a used record
whose bound group is not in the state its condition names, and the image value otherwise; nothing but the line changes. No channel byte
begins before the parts of the decisecond event that can move a group are taken, so that a group change of the frame's own event is always
seen (R134); that a command sent before them is no event is the model's reading (notes/assumptions/40.md, DEDUCED). -/
def Obligations.ChannelByteFollowsTheBinding : Prop :=
  (∀ s : State,
      s.parts.sequencer = true ∨ s.parts.arbiter = true ∨ s.parts.modeTimer = true ∨ s.parts.liveness = true ∨ s.parts.hold0 = true ∨
        s.parts.hold1 = true ∨ s.parts.switch = true ∨ s.parts.lamps = true →
      exec .channelByteStart s = .next s) ∧
  ∀ (s : State) (f : Frame) (c : Fin 128), s.parts.groupsMoved = true → s.link.frame = some f → s.link.line.length = 4 + c.val →
    c.val < f.count →
    let used := fun (r : SignNo) => s.store.nv.valid = true ∧ (s.active.signs.get r).used = true
    let sends := fun (b : Byte) =>
      exec .channelByteStart s = .next { s with link := { s.link with line := s.link.line ++ [b] } }
    let covers := fun (r : SignNo) => (s.active.signs.get r).start.toNat ≤ c.val ∧
      c.val < (s.active.signs.get r).start.toNat + (s.active.signs.get r).span.toNat
    ((∀ r, used r → ¬covers r) → sends (s.link.image.get c)) ∧
    ∀ r, used r → covers r → (∀ q, q < r → used q → ¬covers q) →
      ((s.active.signs.get r).bound = 0xFF → sends (s.link.image.get c)) ∧
      ∀ g : GroupNo, (s.active.signs.get r).bound = subjectOf g.val →
        sends (if (s.group g).state = (if (s.active.signs.get r).whenStop then .stop else .go) then s.link.image.get c
          else (s.active.signs.get r).safe)

/-- REPLY_WINDOW_OPEN (R135, R136, R137, R139): after the last channel byte CHECK is sent high byte first, the pair is released, and a
window opens for a polled address alone. The check register starts at FFFFh and takes each bit by the polynomial; run over any bytes and
then over their own CHECK, it ends at 0. That the present moment ends with the frame is the model's own (notes/assumptions/41.md). -/
def Obligations.ReplyWindowOpensAfterCheck : Prop :=
  (∀ (s : State) (f : Frame), s.link.frame = some f → s.link.line.length = 4 + f.count →
      exec .replyWindowOpen s = .next { s with
        link := { s.link with
          line := s.link.line ++ [(crc (s.link.line.drop 1)).extractLsb' 8 8, (crc (s.link.line.drop 1)).extractLsb' 0 8]
          frame := none
          windowOpen := s.link.poll.isSome }
        queue := { s.queue with fresh := 0, dropped := [], accessed := false, sampled := false } }) ∧
  (crc [] = 0xFFFF ∧
    (∀ (reg : Word) (b : Bool), crcBit reg b = (if reg.getLsbD 15 = b then reg <<< 1 else (reg <<< 1) ^^^ 0x1021)) ∧
    ∀ bytes : List Byte, crc (bytes ++ [(crc bytes).extractLsb' 8 8, (crc bytes).extractLsb' 0 8]) = 0)

/-- GOOD_REPLY (R139, R140, R142): a reply begun within 3 ms and complete before the window closes, with no byte error and the right LEAD,
ADDR, SEQ and CHECK, makes the polled sign LIVE with its miss run 0 and the status flags taken, with SIGN_LIVE and SIGN_STATUS where either
changes, in that order; the outcome of a poll whose record a commit has changed is discarded. That any other reply changes nothing until the
window closes as a miss is the model's choice (notes/assumptions/24.md); that a first byte at 3,000 µs is in time and a sixth ended at 6,000
µs is not, is inferred (15.md, DEDUCED). -/
def Obligations.GoodReplyMakesTheSignLive : Prop :=
  ∀ (s : State) (p : Poll) (r : Reply), s.link.poll = some p → s.link.windowOpen = true →
    let data := (r.bytes.take 6).map (·.data)
    let good := r.firstStart ≤ 3000 ∧ r.sixthEnd < 6000 ∧ 6 ≤ r.bytes.length ∧
      (∀ b ∈ r.bytes.take 6, b.parity = parityBit b.data ∧ b.stop = true) ∧
      ∃ status c1 c0 : Byte, data = [0x3C, p.address, p.seq, status, c1, c0] ∧ c1 ++ c0 = crc [p.address, p.seq, status]
    let status := (r.bytes.map (·.data)).getD 3 0
    let flags : SignStatus := ⟨status.getLsbD 0, status.getLsbD 1, status.getLsbD 2⟩
    let stands := p.discarded = false ∧ s.store.nv.valid = true ∧ (s.active.signs.get p.record).used = true ∧
      (s.active.signs.get p.record).address = p.address
    let x := s.link.signs.get p.record
    let live : Queue := if x.state = .live then s.queue
      else s.queue.submit .signLive (lowWord s.clock) (subjectOf p.record.val) (p.address.setWidth 16)
    (¬good → exec (.goodReply r) s = .next s) ∧
    (good → ¬stands → exec (.goodReply r) s = .next { s with link := { s.link with poll := none, windowOpen := false } }) ∧
    (good → stands → exec (.goodReply r) s = .next { s with
      link := { s.link with signs := s.link.signs.set p.record ⟨.live, 0, flags⟩, poll := none, windowOpen := false }
      queue := if x.status = flags then live
        else live.submit .signStatus (lowWord s.clock) (subjectOf p.record.val) (signStatusDetail flags x.status) })

/-- REPLY_MISS and SIGN_SILENT (R139, R141): the close of the window without a good reply advances the polled sign's miss run, saturating at
255; a sign that is UNKNOWN or LIVE becomes SILENT at 3 or more, with SIGN_SILENT; its last status stands; the outcome of a poll
whose record a commit has changed is discarded. -/
def Obligations.MissesMakeTheSignSilent : Prop :=
  ∀ (s : State) (p : Poll), s.link.poll = some p → s.link.windowOpen = true →
    let stands := p.discarded = false ∧ s.store.nv.valid = true ∧ (s.active.signs.get p.record).used = true ∧
      (s.active.signs.get p.record).address = p.address
    let x := s.link.signs.get p.record
    let n := min (x.missRun + 1) 255
    (¬stands → exec .replyMiss s = .next { s with link := { s.link with poll := none, windowOpen := false } }) ∧
    (stands → x.state = .silent ∨ n < 3 → exec .replyMiss s = .next { s with
      link := { s.link with signs := s.link.signs.set p.record { x with missRun := n }, poll := none, windowOpen := false } }) ∧
    (stands → x.state ≠ .silent → 3 ≤ n →
      exec .signSilent s = exec .replyMiss s ∧ exec .replyMiss s = .next { s with
        link := { s.link with
          signs := s.link.signs.set p.record { x with state := .silent, missRun := n }, poll := none, windowOpen := false }
        queue := s.queue.submit .signSilent (lowWord s.clock) (subjectOf p.record.val) (p.address.setWidth 16) })

/-! ### The bus tap -/

/-- PASSED_ACCESS (R69, R72, R82): an access outside the guarded area, to a passed page of it or made while a reset is held goes to memory
with its address, direction, byte enables and data, whatever its level; a read returns what memory returns; no state of the device changes;
both strobes make a write. -/
def Obligations.PassedAccessReachesMemoryUnchanged : Prop :=
  ∀ (s : State) (a : Access),
    let offset := a.addr.toNat % 65536
    s.held = true ∨ a.addr.toNat / 65536 ≠ s.tap.strap.toNat ∨ 16384 ≤ offset ∨ (9 ≤ offset ∧ offset < 256) ∨
      (7 * 256 ≤ offset ∧ offset < 8 * 256) ∨ 13 * 256 ≤ offset →
    (a.writeStrobe = true →
      exec (.passedAccess a) s = .next { s with bus := ⟨none, some ⟨true, a.addr, a.enables, a.data⟩⟩ }) ∧
    (a.writeStrobe = false → a.readStrobe = true →
      exec (.passedAccess a) s = .next { s with bus := ⟨some a.memory, some ⟨false, a.addr, a.enables, 0⟩⟩ })

/-- LOW_WORD_READ, and reads of served words (R74, R75, R78, R79, R80, R178, R179; 11.4, 11.5, 11.7, 11.9, 11.10): a read returns the word
with no memory cycle, and 0 above the read level, for an unassigned word and for a command word. The low word of each two-word value latches
the value's high half, and its high word reads the latch. Every other assigned word reads its value and latches nothing: the lamp view, the
status page, the detector page, port words 0 to 2 of a reader's head record (R150), the control word, the sign image, the staging words and
the COMMIT page; the bits that no field holds read 0 (R178). The command at word 3 of a port is the TAKE of its reader, at a word of the
request page that word's read, and at any other word of a passed page goes to memory (R71, R72). A read of a served page at the same moment
as submissions may be taken before the later of them (R148). That the sender says how many follow the read is the model's choice
(notes/assumptions/39.md), and so are the extent of a moment, the note of the access, and that what the processor has seen of the queue
stands (41.md); where a reset is held, that the strap last latched places the word (34.md). -/
def Obligations.ServedReadsAnswerAndLatch : Prop :=
  (∀ (s : State) (page : Fin 64) (offset : Fin 256) (e : ByteEnables) (level : Level) (memory : Word) (later : Nat),
    s.held = false → servedPage page.val = true → ¬(page = 4 ∧ offset = 3) → ¬(page = 5 ∧ offset = 3) →
    later = 0 ∨ s.queue.moment = [] ∨ s.queue.accessed = true →
    let c := wordClass page.val offset.val
    let passes := level.toNat ≤ (requiredLevel s.tap.levelMap (readArea page.val)).toNat
    let k := offset.val
    let l := s.latches
    let q := s.queue
    let nv := s.store.nv
    let shown := (page = 2 ∧ 177 ≤ k ∧ k ≤ 180) ∨ ((page = 4 ∨ page = 5) ∧ k < 3)
    let noted := if passes ∧ shown then { q.atAccess with fresh := 0, dropped := [] } else q.atAccess
    let answers := fun (v : Word) (l : Latches) =>
      exec (.lowWordRead page offset ⟨e, later⟩ level memory) s = .next { s with
        latches := l, queue := noted, bus := ⟨some v, none⟩ }
    let pair := fun (at' : Nat) (low : Word) (latched : Latches) (latch : Word) =>
      (k = at' → answers low latched) ∧ (k = at' + 1 → answers latch l)
    let high := fun (n : Nat) => BitVec.ofNat 16 (n / 65536 % 256)
    (c = .unassigned ∨ ¬passes → answers 0 l) ∧
    (passes → c = .command → answers 0 l) ∧
    (passes → page = 1 → ∀ g : GroupNo,
      (k = 2 * g.val → ∃ v, answers v l ∧
        v.extractLsb' 0 4 = BitVec.ofNat 4 (groupStateCode (s.group g).state) ∧
        v.getLsbD 4 = (s.group g).heldStop ∧ v.getLsbD 5 = (s.group g).lateCancel ∧
        v.extractLsb' 8 2 = BitVec.ofNat 2 (driveCode (s.drive g .stop)) ∧
        v.extractLsb' 10 2 = BitVec.ofNat 2 (driveCode (s.drive g .clear)) ∧
        v.extractLsb' 12 2 = BitVec.ofNat 2 (driveCode (s.drive g .go)) ∧ v &&& 0xC0C0 = 0) ∧
      (k = 2 * g.val + 1 → ∃ v, answers v l ∧ v &&& 0x8E88 = 0 ∧
        ∀ (line : Line) (n : Nat), n = (if line = .stop then 0 else if line = .clear then 1 else 2) →
          v.getLsbD n = (senseLine s.lamps.raw line).getLsbD g.val ∧
          v.getLsbD (n + 4) = (s.lamps.stretched line).getLsbD g.val ∧
          v.getLsbD 8 = s.lamps.commandedGo.getLsbD g.val ∧
          v.getLsbD (n + 12) = (s.lamps.failed line).getLsbD g.val)) ∧
    (passes → page = 2 →
      (∀ g : GroupNo,
        (k = g.val → answers (BitVec.ofNat 16 (s.group g).elapsed) l) ∧
        (k = 32 + g.val → answers (BitVec.ofNat 16 (s.group g).age) l) ∧
        (k = 64 + g.val → answers (BitVec.ofNat 16 (s.arbiter.waits.get g)) l) ∧
        (k = 96 + g.val → answers (BitVec.ofNat 16 (s.group g).goTimer) l) ∧
        (k = 128 + g.val →
          answers (BitVec.ofNat 8 (s.group g).clearingTimer ++ BitVec.ofNat 8 (s.group g).prepareTimer) l)) ∧
      pair 160 (lowWord s.clock) { l with clock := highWord s.clock } l.clock ∧
      pair 168 (lowWord s.arbiter.releasable) { l with releasable := highWord s.arbiter.releasable } l.releasable ∧
      pair 186 (lowWord nv.lastFault.clock) { l with faultClock := highWord nv.lastFault.clock } l.faultClock ∧
      pair 188 (BitVec.ofNat 16 nv.faultEntries) { l with faultEntries := high nv.faultEntries } l.faultEntries ∧
      pair 190 (BitVec.ofNat 16 nv.livenessLosses) { l with livenessLosses := high nv.livenessLosses } l.livenessLosses ∧
      pair 192 (BitVec.ofNat 16 nv.commits) { l with commits := high nv.commits } l.commits ∧
      pair 194 (BitVec.ofNat 16 nv.service) { l with service := high nv.service } l.service ∧
      (k = 162 → answers (BitVec.ofNat 8 (causeCode s.mode.cause) ++ BitVec.ofNat 8 (modeCode s.mode.mode)) l) ∧
      (k = 163 → answers (0#4 ++ s.tap.strap ++ 0#3 ++ BitVec.ofBool (!nv.valid) ++ BitVec.ofBool s.mode.switch.level ++
        BitVec.ofBool s.mode.h1.level ++ BitVec.ofBool s.mode.h0.level ++ BitVec.ofBool s.mode.normalPending) l) ∧
      (k = 164 → answers (BitVec.ofNat 16 s.mode.startFlashTimer) l) ∧
      (k = 165 → answers (BitVec.ofNat 16 s.mode.allStopTimer) l) ∧
      (k = 166 → answers (BitVec.ofNat 16 s.mode.flashEntryTimer) l) ∧
      (k = 167 → answers (BitVec.ofNat 16 s.page.liveness) l) ∧
      (k = 170 → answers s.arbiter.firstReleasable l) ∧
      (k = 171 → answers s.page.word0.value l) ∧ (k = 172 → answers s.page.word1.value l) ∧
      (k = 173 → answers s.page.word8.value l) ∧
      (k = 174 → answers (0#13 ++ BitVec.ofBool s.page.word8.written ++ BitVec.ofBool s.page.word1.written ++
        BitVec.ofBool s.page.word0.written) l) ∧
      (k = 175 → answers (BitVec.ofNat 16 s.page.refusals) l) ∧ (k = 176 → answers (0#2 ++ s.tap.levelMap) l) ∧
      (k = 177 → answers (BitVec.ofNat 16 q.held.length) l) ∧ (k = 178 → answers (BitVec.ofNat 16 q.takenA) l) ∧
      (k = 179 → answers (BitVec.ofNat 16 q.takenB) l) ∧
      (k = 180 → answers (0#7 ++ BitVec.ofBool q.enabledB ++ BitVec.ofNat 8 q.missed) l) ∧
      (k = 184 → answers (BitVec.ofNat 8 (modeCode nv.lastFault.mode) ++
        BitVec.ofNat 8 (match nv.lastFault.cause with
          | some c => faultCauseCode c
          | none => 0)) l) ∧
      (k = 185 → answers (nv.lastFault.second ++ nv.lastFault.first) l)) ∧
    (passes → page = 4 ∨ page = 5 → k < 3 →
      let mine := if page = 4 then q.takenA else q.takenB
      (q.held.length ≤ mine ∨ (page = 5 ∧ q.enabledB = false) → answers 0 l) ∧
      ∀ r : Record, page = 4 ∨ q.enabledB = true → q.held[mine]? = some r →
        (k = 0 → answers (BitVec.ofNat 8 r.missed ++ BitVec.ofNat 8 (eventKindCode r.kind)) l) ∧
        (k = 1 → answers r.stamp l) ∧ (k = 2 → answers (0#8 ++ r.subject) l)) ∧
    (passes → page = 4 → k = 8 → answers (if q.enabledB then 1 else 0) l) ∧
    (passes → page = 12 →
      (k = 1 → answers (BitVec.ofBool nv.freeze ++ 0#8 ++ nv.lockFlags) l) ∧ (k = 2 → answers (if s.store.busy then 1 else 0) l) ∧
      (k = 3 → answers (match s.store.result with
        | .none => 0
        | .refused reason => BitVec.ofNat 8 (reasonCode reason) ++ 1#8
        | .invalid code _ _ => BitVec.ofNat 8 code ++ 2#8
        | .unchanged => 3
        | .done => 4) l) ∧
      (k = 4 → answers (match s.store.result with
        | .invalid _ sec index => 0#1 ++ BitVec.ofNat 3 (sectionCode sec) ++ 0#2 ++ BitVec.ofNat 10 index
        | _ => 0) l)) ∧
    (passes → page = 3 → ∀ d : DetectorNo, d.val = s.detectors.select.toNat →
      let v := s.detector d
      (k = 0 → answers s.detectors.select l) ∧ (k = 1 → answers (BitVec.ofNat 16 (detectorKindCode v.kind)) l) ∧
      (k = 2 → answers (v.offFilter ++ v.onFilter) l) ∧ (k = 3 → answers (lowWord v.callMask) l) ∧
      (k = 4 → answers (highWord v.callMask) l) ∧ (k = 5 → answers v.prescale l) ∧ (k = 6 → answers (v.stuckOff ++ v.stuckOn) l) ∧
      (k = 8 → answers (BitVec.ofNat 8 v.run ++ 0#1 ++ BitVec.ofNat 3 (detectorStateCode v.state) ++ 0#2 ++ BitVec.ofBool v.level ++
        BitVec.ofBool v.raw) l) ∧
      (k = 13 → answers (BitVec.ofNat 16 v.accumulator) l) ∧
      pair 9 (BitVec.ofNat 16 (s.detector d).occupancy)
        { l with occupancy := BitVec.ofNat 16 ((s.detector d).occupancy / 65536) } l.occupancy ∧
      pair 11 (BitVec.ofNat 16 (s.detector d).gap) { l with gap := BitVec.ofNat 16 ((s.detector d).gap / 65536) } l.gap ∧
      pair 14 (lowWord (s.detector d).total) { l with total := highWord (s.detector d).total } l.total ∧
      (k = 16 → answers (lowWord s.detectors.calls) l) ∧ (k = 17 → answers (highWord s.detectors.calls) l)) ∧
    (passes → page = 6 → ∀ even odd : Fin 128, even.val = 2 * k → odd.val = 2 * k + 1 →
      answers (s.link.image.get odd ++ s.link.image.get even) l) ∧
    (passes → ∀ n, n < 732 → page.val = 8 + n / 256 → k = n % 256 → answers (s.store.staging.word (stagingPlace n)) l)) ∧
  (∀ (u : State) (rs : List Record) (page : Fin 64) (offset : Fin 256) (e : ByteEnables) (level : Level) (memory : Word),
    u.held = false → QueueInv u.queue → u.queue.accessed = false → servedPage page.val = true →
    ∃ t, exec (.lowWordRead page offset ⟨e, 0⟩ level memory) u = .next t ∧
      exec (.lowWordRead page offset ⟨e, rs.length⟩ level memory) { u with queue := rs.foldl Queue.store u.queue } =
        .next { t with queue := rs.foldl Queue.store t.queue }) ∧
  ∀ (s : State) (e : ByteEnables) (later : Nat) (level : Level) (memory : Word),
    exec (.lowWordRead 4 3 ⟨e, later⟩ level memory) s = exec (.take ⟨.a, later⟩ e level memory) s ∧
    exec (.lowWordRead 5 3 ⟨e, later⟩ level memory) s = exec (.take ⟨.b, later⟩ e level memory) s ∧
    (∀ (word : Fin 9) (offset : Fin 256), offset.val = word.val →
      exec (.lowWordRead 0 offset ⟨e, later⟩ level memory) s = exec (.requestBaseRead word e level memory) s) ∧
    ∀ (page : Fin 64) (offset : Fin 256), servedPage page.val = false → (page = 0 → 9 ≤ offset.val) →
      exec (.lowWordRead page offset ⟨e, later⟩ level memory) s = .next { s with
        bus := ⟨some memory, some ⟨false, s.guardedAddress page.val offset.val, e, 0⟩⟩ }

/-- SERVED_WRITE as refused and dropped (R71, R75, R77, R79, R80, R81): a write with no byte enabled or to an unassigned word of a served
page changes nothing; one to a read-only word is refused with READ_ONLY at every level; one above the write level of its word is refused
with LEVEL; each refusal raises its record and changes nothing else. That the queue notes the access, so that no two are at one moment, is
the model's own (notes/assumptions/41.md). -/
def Obligations.ServedWritesAreRefusedByClassAndLevel : Prop :=
  ∀ (s : State) (page : Fin 64) (offset : Fin 256) (w : BusWrite), s.held = false → servedPage page.val = true →
    let c := wordClass page.val offset.val
    let required : Nat :=
      if page = 3 then (requiredLevel s.tap.levelMap .detectors).toNat
      else if page = 4 then (requiredLevel s.tap.levelMap .portA).toNat
      else if page = 6 then (requiredLevel s.tap.levelMap .signImage).toNat
      else if page = 12 ∧ offset = 5 then (requiredLevel s.tap.levelMap .serviceCounter).toNat
      else 0
    let area : Byte := if page = 8 ∨ page = 9 ∨ page = 10 ∨ page = 11 then 8 else BitVec.ofNat 8 page.val
    let word := if area = 8 then (page.val - 8) * 256 + offset.val else offset.val
    let refused := fun (reason : Reason) => exec (.servedWrite page offset w) s = .next { s with
      queue := s.queue.atAccess.submit .refused (lowWord s.clock) area (refusedDetail reason w.level word), bus := ⟨none, none⟩ }
    (w.enables.any = false ∨ c = .unassigned → exec (.servedWrite page offset w) s = .next { s with
      queue := s.queue.atAccess, bus := ⟨none, none⟩ }) ∧
    (w.enables.any = true → c = .readOnly → refused .readOnly) ∧
    (w.enables.any = true → c = .stored ∨ c = .command → required < w.level.toNat → refused .level)

/-! ### The event queue -/

/-- TAKE (R150, R151): a read of the last port word at its level returns the word of the reader's head record and takes it: the record
leaves the queue when the other reader has taken it or B is disabled, and stays held for the other reader otherwise; an empty view and a
read above the level return 0 and take nothing. A take at the same moment as submissions may be taken before the later of them: what it
makes of the queue without those, and then those as R148, R154 and R155 take them. That the sender says how many follow the take is the
model's choice (notes/assumptions/39.md), and so are the extent of a moment and the note of the access (41.md). -/
def Obligations.TakeRemovesWhatBothReadersTook : Prop :=
  (∀ (s : State) (reader : Reader) (later : Nat) (e : ByteEnables) (level : Level) (memory : Word), s.held = false →
    later = 0 ∨ s.queue.moment = [] ∨ s.queue.accessed = true →
    let q := s.queue.atAccess
    let required := requiredLevel s.tap.levelMap (if reader = .a then .portA else .portB)
    let mine := if reader = .a then q.takenA else q.takenB
    let other := if reader = .a then q.takenB else q.takenA
    let reads := fun (v : Word) (q' : Queue) =>
      exec (.take ⟨reader, later⟩ e level memory) s = .next { s with queue := q', bus := ⟨some v, none⟩ }
    (required.toNat < level.toNat ∨ q.held.length ≤ mine ∨ (reader = .b ∧ q.enabledB = false) → reads 0 q) ∧
    ∀ r : Record, level.toNat ≤ required.toNat → reader = .a ∨ q.enabledB = true → q.held[mine]? = some r →
      (q.enabledB = false ∨ mine < other → reads r.detail { q with
        held := q.held.take mine ++ q.held.drop (mine + 1)
        takenA := if reader = .a then q.takenA else q.takenA - 1
        takenB := if reader = .a then q.takenB - 1 else q.takenB
        fresh := 0, dropped := [] }) ∧
      (q.enabledB = true → other ≤ mine → reads r.detail { q with
        takenA := if reader = .a then q.takenA + 1 else q.takenA
        takenB := if reader = .a then q.takenB else q.takenB + 1
        fresh := 0, dropped := [] })) ∧
  ∀ (u t : State) (rs : List Record) (reader : Reader) (e : ByteEnables) (level : Level) (memory : Word),
    u.held = false → QueueInv u.queue → u.queue.accessed = false → exec (.take ⟨reader, 0⟩ e level memory) u = .next t →
    exec (.take ⟨reader, rs.length⟩ e level memory) { u with queue := rs.foldl Queue.store u.queue } =
      .next { t with queue := rs.foldl Queue.store t.queue }

/-- ENABLE_READER_B and DISABLE_READER_B (R152, R153): enabling gives B an empty view past every held record; disabling removes the records
A has taken and sets both counts to 0; a write of the value held, or with the low byte not enabled, changes nothing. A write at the same
moment as submissions may be taken before the later of them: what it makes of the queue without those, and then those as R148, R154 and R155
take them, so that a reader B enabled part-way has them alone in its view (R152). That the sender says how many follow the write is the
model's choice (notes/assumptions/39.md), and so are the extent of a moment and the note of the access (41.md). -/
def Obligations.ReaderBIsEnabledAndDisabled : Prop :=
  (∀ (s : State) (w : BusWrite) (later : Nat), Taken s (requiredLevel s.tap.levelMap .portA) w →
    later = 0 ∨ s.queue.moment = [] ∨ s.queue.accessed = true →
    let q := s.queue.atAccess
    let gives := fun (c : Instr) (q' : Queue) => exec c s = .next { s with queue := q', bus := ⟨none, none⟩ }
    (w.enables.low = true → q.enabledB = false →
      gives (.enableReaderB ⟨w, later⟩) { q with enabledB := true, takenB := q.held.length, fresh := 0, dropped := [] }) ∧
    (w.enables.low = true → q.enabledB = true → gives (.disableReaderB ⟨w, later⟩) { q with
      enabledB := false, held := q.held.drop q.takenA, takenA := 0, takenB := 0, fresh := 0, dropped := [] }) ∧
    (w.enables.low = false ∨ q.enabledB = true → gives (.enableReaderB ⟨w, later⟩) q) ∧
    (w.enables.low = false ∨ q.enabledB = false → gives (.disableReaderB ⟨w, later⟩) q)) ∧
  ∀ (u t : State) (rs : List Record) (w : BusWrite), u.held = false → QueueInv u.queue → u.queue.accessed = false →
    let s : State := { u with queue := rs.foldl Queue.store u.queue }
    (exec (.enableReaderB ⟨w, 0⟩) u = .next t →
      exec (.enableReaderB ⟨w, rs.length⟩) s = .next { t with queue := rs.foldl Queue.store t.queue } ∧
      (u.queue.enabledB = false → t.queue.enabledB = true → u.queue.held.length + rs.length ≤ 128 →
        (rs.foldl Queue.store t.queue).viewB.map Record.content = rs.map Record.content ∧
        (rs.foldl Queue.store t.queue).contents = s.queue.contents)) ∧
    (exec (.disableReaderB ⟨w, 0⟩) u = .next t →
      exec (.disableReaderB ⟨w, rs.length⟩) s = .next { t with queue := rs.foldl Queue.store t.queue })

/-- TIME_MARK (R156): the queue's part of a decisecond event submits a mark where the clock's new value is a multiple of 600, the value 0
after the wrap among them, with the high half of the clock as detail and no subject. That a mark whose part of the event is not due is none
is the model's choice (notes/assumptions/1.md). -/
def Obligations.TimeMarkFallsOnceAMinute : Prop :=
  ∀ s : State,
    (s.parts.mark = true → s.clock.toNat % 600 = 0 → exec .timeMark s = .next { s with
      queue := s.queue.submit .timeMark (lowWord s.clock) 0xFF (highWord s.clock), parts := { s.parts with mark := false } }) ∧
    (s.parts.mark = true → s.clock.toNat % 600 ≠ 0 → exec .timeMark s = .next { s with parts := { s.parts with mark := false } }) ∧
    (s.parts.mark = false → exec .timeMark s = .next s)

/-- TIME_MARK_WORD_WRITE (R157): a mark at once with the whole clock, whatever the value written; none, and no record, with no byte enabled;
above the PORT_A level no mark and a REFUSED record; a read of the word returns 0. That the queue notes the access, so that no two are at
one moment, is the model's own (notes/assumptions/41.md). -/
def Obligations.TimeMarkWordMarksAtOnce : Prop :=
  ∀ (s : State) (w : BusWrite), s.held = false →
    let required := (requiredLevel s.tap.levelMap .portA).toNat
    (w.enables.any = true → w.level.toNat ≤ required → exec (.timeMarkWordWrite w) s = .next { s with
      queue := s.queue.atAccess.submit .timeMark (lowWord s.clock) 0xFF (highWord s.clock), bus := ⟨none, none⟩ }) ∧
    (w.enables.any = false → exec (.timeMarkWordWrite w) s = .next { s with queue := s.queue.atAccess, bus := ⟨none, none⟩ }) ∧
    (w.enables.any = true → required < w.level.toNat → exec (.timeMarkWordWrite w) s = .next { s with
      queue := s.queue.atAccess.submit .refused (lowWord s.clock) 4 (refusedDetail .level w.level 9), bus := ⟨none, none⟩ }) ∧
    ∀ (e : ByteEnables) (level : Level) (memory : Word),
      exec (.lowWordRead 4 9 ⟨e, 0⟩ level memory) s = .next { s with queue := s.queue.atAccess, bus := ⟨some 0, none⟩ }

/-- Submission and ATTN (R148, R154, R155, R158): below 128 held records a submission is stored at the tail with the missed count, which
falls to 0; at 128 it is dropped and counted, saturating at 255, and no held record and no view changes. Submissions of different blocks at
one moment may be taken in either order: a submission is taken before any number of the newest of its moment that it need not follow, which
the free value chooses, and it follows every record of its own block, the refusal trigger's own MODE record the REFUSED record (R92), and a
FAULT record the LAMP_FAIL records (R110). What stood before the moment stands. ATTN is high exactly while no reset is held and A's view
holds a record or the mode is FAULT_FLASH. The extent of a moment is the model's choice (notes/assumptions/41.md). -/
def Obligations.SubmissionStoresOrCounts : Prop :=
  ∀ (s : State) (kind : EventKind) (subject : Byte) (detail : Word),
    let q := s.queue
    let stamp := s.clock.extractLsb' 0 16
    let r : Record := ⟨kind, stamp, subject, detail, q.missed⟩
    let t := submit kind subject detail s
    t = { s with queue := { q with
      held := t.queue.held, missed := t.queue.missed, fresh := t.queue.fresh, dropped := t.queue.dropped, choices := q.choices + 1 } } ∧
    ((∀ x, q.moment.getLast? = some x → mustFollow r x = true) →
      (q.held.length < 128 → t.queue.held = q.held ++ [r] ∧ t.queue.missed = 0) ∧
      (128 ≤ q.held.length → t.queue.held = q.held ∧ t.queue.missed = min (q.missed + 1) 255 ∧
        t.queue.viewA = q.viewA ∧ t.queue.viewB = q.viewB)) ∧
    (q.held.length < 128 →
      ∃ n, n ≤ q.fresh ∧ (∀ y ∈ q.held.drop (q.held.length - n), mustFollow r y = false) ∧
        t.queue.contents = q.contents.take (q.held.length - n) ++
          (kind, stamp, subject, detail) :: q.contents.drop (q.held.length - n)) ∧
    (QueueInv q →
      (∃ n, n ≤ q.moment.length ∧ (∀ y ∈ q.moment.drop (q.moment.length - n), mustFollow r y = false) ∧
        t.queue.moment.map Record.content = (q.moment.take (q.moment.length - n)).map Record.content ++
          (kind, stamp, subject, detail) :: (q.moment.drop (q.moment.length - n)).map Record.content) ∧
      (q.held.length = 128 → t.queue.held.length = 128 ∧ t.queue.held.take (128 - q.fresh) = q.held.take (128 - q.fresh) ∧
        t.queue.viewA.length = q.viewA.length ∧ t.queue.viewB.length = q.viewB.length)) ∧
    (∀ later earlier : Record, mustFollow later earlier = true ↔
      later.kind.block = earlier.kind.block ∨ (later.kind = .fault ∧ earlier.kind = .lampFail) ∨
      (later.kind = .mode ∧ later.detail.toNat % 16 = modeCode .toFlash ∧ later.detail.toNat / 256 = causeCode .refusals ∧
        earlier.kind = .refused)) ∧
    (s.attn = true ↔ s.held = false ∧ (q.takenA < q.held.length ∨ s.mode.mode = .faultFlash))

/-! ### The detector page and the sign image -/

/-- DETECTOR_SELECT_WRITE and DETECTOR_KIND_WRITE (R77, R81, R126, R180): a select above 47 after the merge is refused with VALUE; another
kind resets the selected detector's state, filter, timers, accumulator and total and keeps its settings and the call bits; the same kind
changes nothing. That the queue notes the access, so that no two are at one moment, is the model's own (notes/assumptions/41.md). -/
def Obligations.DetectorSelectAndKindWrites : Prop :=
  ∀ (s : State) (w : BusWrite), Taken s (requiredLevel s.tap.levelMap .detectors) w →
    let x := mergeBytes s.detectors.select w.data w.enables
    (x.toNat < 48 → exec (.detectorSelectWrite w) s = .next { s with
      detectors := { s.detectors with select := x }, queue := s.queue.atAccess, bus := ⟨none, none⟩ }) ∧
    (48 ≤ x.toNat → exec (.detectorSelectWrite w) s = .next { s with
      queue := s.queue.atAccess.submit .refused (lowWord s.clock) 3 (refusedDetail .value w.level 0), bus := ⟨none, none⟩ }) ∧
    ∀ d : DetectorNo, s.detectors.select.toNat = d.val →
      let v := s.detector d
      let code := if w.enables.low then w.data.toNat % 4 else detectorKindCode v.kind
      (code = detectorKindCode v.kind → exec (.detectorKindWrite w) s = .next { s with queue := s.queue.atAccess, bus := ⟨none, none⟩ }) ∧
      ∀ kind : DetectorKind, code = detectorKindCode kind → kind ≠ v.kind →
        exec (.detectorKindWrite w) s = .next { s with
          detectors := (let x : Detector :=
              ⟨kind, v.onFilter, v.offFilter, v.callMask, v.prescale, v.stuckOn, v.stuckOff, v.raw, false, 0,
                (if kind = .off then .disabled else .free), 0, 0, 0, 0⟩
            { s.detectors with detectors := s.detectors.detectors.set d x })
          queue := s.queue.atAccess, bus := ⟨none, none⟩ }

/-- DETECTOR_SETTINGS_WRITE (R81, R113, R123, R127): the merged word sets the filters, a half of the call mask, the prescale with 0 stored
as 1, or the stuck limits of the selected detector, and nothing else of it; a group newly mapped by a faulted PRESENCE or PULSE detector is
called at once if it is configured, and no other call bit changes. That the queue notes the access, so that no two are at one moment, is the
model's own (notes/assumptions/41.md). -/
def Obligations.DetectorSettingsWritesActAtOnce : Prop :=
  ∀ (s : State) (setting : Fin 5) (w : BusWrite) (d : DetectorNo),
    Taken s (requiredLevel s.tap.levelMap .detectors) w → s.detectors.select.toNat = d.val →
    let v := s.detector d
    let byte := fun (old : Byte) (high : Bool) =>
      if high then (if w.enables.high then w.data.extractLsb' 8 8 else old) else (if w.enables.low then w.data.extractLsb' 0 8 else old)
    let merged := fun (old : Word) => mergeBytes old w.data w.enables
    let u : Detector :=
      if setting = 0 then { v with onFilter := byte v.onFilter false, offFilter := byte v.offFilter true }
      else if setting = 1 then { v with callMask := v.callMask.extractLsb' 16 16 ++ merged (v.callMask.extractLsb' 0 16) }
      else if setting = 2 then { v with callMask := merged (v.callMask.extractLsb' 16 16) ++ v.callMask.extractLsb' 0 16 }
      else if setting = 3 then { v with prescale := if merged v.prescale = 0 then 1 else merged v.prescale }
      else { v with stuckOn := byte v.stuckOn false, stuckOff := byte v.stuckOff true }
    ∃ calls : Mask,
      exec (.detectorSettingsWrite setting w) s = .next { s with
        detectors := { s.detectors with detectors := s.detectors.detectors.set d u, calls := calls }
        queue := s.queue.atAccess, bus := ⟨none, none⟩ } ∧
      ∀ g : GroupNo, calls.getLsbD g.val = true ↔ (s.detectors.calls.getLsbD g.val = true ∨
        ((v.state = .faultedOn ∨ v.state = .faultedOff) ∧ (v.kind = .presence ∨ v.kind = .pulse) ∧ s.configured g = true ∧
          u.callMask.getLsbD g.val = true ∧ v.callMask.getLsbD g.val = false))

/-- CALL_CLEAR_ALIAS (R81, R123, R124): the call bits named by the enabled bytes are cleared, but for a configured group that a faulted
PRESENCE or PULSE detector maps, whose bit stands set; every other bit and every detector is as it was. That the queue notes the access, so
that no two are at one moment, is the model's own (notes/assumptions/41.md). -/
def Obligations.CallClearAliasKeepsStandingCalls : Prop :=
  ∀ (s : State) (word : Fin 2) (w : BusWrite), Taken s (requiredLevel s.tap.levelMap .detectors) w →
    ∃ calls : Mask,
      exec (.callClearAlias word w) s = .next { s with
        detectors := { s.detectors with calls := calls }, queue := s.queue.atAccess, bus := ⟨none, none⟩ } ∧
      ∀ g : GroupNo,
        let named := g.val / 16 = word.val ∧ w.data.getLsbD (g.val % 16) = true ∧
          (if g.val % 16 < 8 then w.enables.low else w.enables.high) = true
        let standing := s.configured g = true ∧ ∃ d : DetectorNo,
          ((s.detector d).state = .faultedOn ∨ (s.detector d).state = .faultedOff) ∧
          ((s.detector d).kind = .presence ∨ (s.detector d).kind = .pulse) ∧ (s.detector d).callMask.getLsbD g.val = true
        (¬named → calls.getLsbD g.val = s.detectors.calls.getLsbD g.val) ∧ (named → (calls.getLsbD g.val = true ↔ standing))

/-- SIGN_IMAGE_WRITE (R81, R131): the channels of the enabled bytes take the data, channel 2w from the low byte and 2w + 1 from the high
byte; every other channel, and everything else, is as it was. That the queue notes the access, so that no two are at one moment, is the
model's own (notes/assumptions/41.md). -/
def Obligations.SignImageWriteSetsItsChannels : Prop :=
  ∀ (s : State) (word : Fin 64) (w : BusWrite), Taken s (requiredLevel s.tap.levelMap .signImage) w →
    ∃ image : Vector Byte 128,
      exec (.signImageWrite word w) s = .next { s with
        link := { s.link with image := image }, queue := s.queue.atAccess, bus := ⟨none, none⟩ } ∧
      ∀ c : Fin 128, image.get c =
        if c.val = 2 * word.val ∧ w.enables.low = true then w.data.extractLsb' 0 8
        else if c.val = 2 * word.val + 1 ∧ w.enables.high = true then w.data.extractLsb' 8 8
        else s.link.image.get c

/-! ### The table store -/

/-- STAGING_WRITE (R77, R163, R164): decided by switch, commit in progress and lock in this order, each refusal recorded with the area
offset and leaving staging as it was; an accepted write sets its enabled bytes of its own word and nothing else. SERVED_WRITE of the same
word does the same. That the queue notes the access, so that no two are at one moment, is the model's own (notes/assumptions/41.md). -/
def Obligations.StagingWritesAreDecidedInOrder : Prop :=
  ∀ (s : State) (k : Fin 1024) (w : BusWrite), Taken s 0 w → k.val < 732 →
    let c := Instr.stagingWrite k w
    let p := stagingPlace k.val
    let locked := s.store.nv.lockFlags.getLsbD (sectionCode (placeSection p)) = true
    let refused := fun (reason : Reason) => exec c s = .next { s with
      queue := s.queue.atAccess.submit .refused (lowWord s.clock) 8 (refusedDetail reason 0 k.val), bus := ⟨none, none⟩ }
    (s.mode.switch.level = false → refused .switchOpen) ∧
    (s.mode.switch.level = true → s.store.busy = true → refused .busy) ∧
    (s.mode.switch.level = true → s.store.busy = false → locked → refused .locked) ∧
    (s.mode.switch.level = true → s.store.busy = false → ¬locked → exec c s = .next { s with
      store := { s.store with
        staging := s.store.staging.setWord p (mergeBytes (s.store.staging.word p) w.data w.enables) }
      queue := s.queue.atAccess, bus := ⟨none, none⟩ }) ∧
    ∀ (page : Fin 64) (offset : Fin 256), page.val = 8 + k.val / 256 → offset.val = k.val % 256 →
      exec (.servedWrite page offset w) s = exec c s

/-- The staging words (R160, R163, R178 and the layout of 11.10): a word written reads back with the bits that hold no field at 0, and no
word at another offset changes. -/
def Obligations.StagingWordsReadBack : Prop :=
  ∀ (t : Tables) (k : Nat) (w : Word), k < 732 →
    (t.setWord (stagingPlace k) w).word (stagingPlace k) =
      w &&& (if k < 576 then 0xFFFF
        else if k < 672 then (if (k - 576) % 3 = 0 then 0xFF3F else 0xFFFF)
        else if k < 676 then 0xFFFF
        else if k < 724 then (if (k - 676) % 3 = 2 then 0x03FF else 0xFFFF)
        else if k < 731 then 0xFFFF
        else 0x3FFF) ∧
    ∀ k', k' < 732 → k' ≠ k → (t.setWord (stagingPlace k) w).word (stagingPlace k') = t.word (stagingPlace k')

/-- LOCK_WRITE and LOCK_FREEZE (R165, R166): decided by switch, configuration, freeze and commit in progress in this order; accepted, the
merged word is combined by OR, each newly locked section is copied from active into staging and no other is, and the freeze is set where the
merged word has it. That the queue notes the access, so that no two are at one moment, is the model's own (notes/assumptions/41.md). -/
def Obligations.LockWritesAreDecidedInOrder : Prop :=
  ∀ (s : State) (c : Instr) (w : BusWrite),
    c = .lockWrite w ∨ (∃ u : BusWrite, c = .lockFreeze u ∧ w = { u with data := u.data ||| 0x8000 }) → Taken s 0 w →
    let nv := s.store.nv
    let refused := fun (reason : Reason) => exec c s = .next { s with
      queue := s.queue.atAccess.submit .refused (lowWord s.clock) 12 (refusedDetail reason 0 1), bus := ⟨none, none⟩ }
    let sets := fun (k : Nat) => w.data.getLsbD k && (if k < 8 then w.enables.low else w.enables.high)
    (s.mode.switch.level = false → refused .switchOpen) ∧
    (s.mode.switch.level = true → nv.valid = false → refused .unconfigured) ∧
    (s.mode.switch.level = true → nv.valid = true → nv.freeze = true → refused .frozen) ∧
    (s.mode.switch.level = true → nv.valid = true → nv.freeze = false → s.store.busy = true → refused .busy) ∧
    (s.mode.switch.level = true → nv.valid = true → nv.freeze = false → s.store.busy = false →
      ∃ (flags : BitVec 7) (staging : Tables),
        exec c s = .next { s with
          store := { s.store with nv := { nv with lockFlags := flags, freeze := sets 15 }, staging := staging }
          queue := s.queue.atAccess, bus := ⟨none, none⟩ } ∧
        (∀ k, k < 7 → flags.getLsbD k = (nv.lockFlags.getLsbD k || sets k)) ∧
        ∀ k : Nat, k < 732 →
          let sec := sectionCode (placeSection (stagingPlace k))
          staging.word (stagingPlace k) =
            if nv.lockFlags.getLsbD sec = false ∧ sets sec = true then s.active.word (stagingPlace k)
            else s.store.staging.word (stagingPlace k))

/-- COMMIT_REQUEST (R77, R168, R169, R170, R174): refused by switch, commit in progress and mode in this order, the result REFUSED with its
reason; then INVALID with the first violation, or UNCHANGED where staging equals the active tables of a configured device, each with its
COMMIT record; otherwise the commit starts, BUSY with result NONE. That the queue notes the access, so that no two are at one moment, is the
model's own (notes/assumptions/41.md). -/
def Obligations.CommitRequestIsDecidedInOrder : Prop :=
  ∀ (s : State) (w : BusWrite), Taken s 0 w →
    let c := Instr.commitRequest w
    let m := s.mode.mode
    let takes := m = .startFlash ∨ m = .flash ∨ m = .dark
    let refused := fun (reason : Reason) => exec c s = .next { s with
      store := { s.store with result := .refused reason }
      queue := s.queue.atAccess.submit .refused (lowWord s.clock) 12 (refusedDetail reason 0 0)
      bus := ⟨none, none⟩ }
    (s.mode.switch.level = false → refused .switchOpen) ∧
    (s.mode.switch.level = true → s.store.busy = true → refused .busy) ∧
    (s.mode.switch.level = true → s.store.busy = false → ¬takes → refused .mode) ∧
    (s.mode.switch.level = true → s.store.busy = false → takes →
      (∀ code sec index, s.store.staging.firstViolation = some (code, sec, index) → exec c s = .next { s with
        store := { s.store with result := .invalid code sec index }
        queue := s.queue.atAccess.submit .commit (lowWord s.clock) 0xFF (BitVec.ofNat 16 (2 + 256 * (code % 256)))
        bus := ⟨none, none⟩ }) ∧
      (s.store.staging.firstViolation = none → s.store.nv.valid = true → s.store.staging = s.store.nv.active →
        exec c s = .next { s with
          store := { s.store with result := .unchanged }
          queue := s.queue.atAccess.submit .commit (lowWord s.clock) 0xFF 3
          bus := ⟨none, none⟩ }) ∧
      (s.store.staging.firstViolation = none → s.store.nv.valid = false ∨ s.store.staging ≠ s.store.nv.active →
        exec c s = .next { s with store := { s.store with busy := true, result := .none }, queue := s.queue.atAccess, bus := ⟨none, none⟩ }))

/-- COMMIT_COMPLETION (R4, R8, R50, R51, R111, R125, R145, R172, R174): the staging tables become the active ones in one unit with the
validity and COMMITS; groups enter and leave the configuration, each with its GROUP_STATE record in ascending group number; the call bits
and the sign records follow, and the outcome of a poll in flight whose record changes is discarded; in FLASH with normal-pending set the
mode goes to ALL_STOP, its timer running exactly where every configured group is then in STOP (R52), and otherwise it stands; the effective
level map stands, and so do the lamp windows and runs and every detector record. The records of ALL_STOP entry's orders follow those of the
changes of the configuration. That the command is no event with no commit in progress is the model's choice (notes/assumptions/17.md). -/
def Obligations.CommitCompletionTakesTheTables : Prop :=
  ∀ s : State,
    (s.store.busy = false → exec .commitCompletion s = .next s) ∧
    (s.store.busy = true → ∃ t, exec .commitCompletion s = .next t ∧
      t.store = { s.store with
        nv := { s.store.nv with
          active := s.store.staging, valid := true, commits := min (s.store.nv.commits + 1) 16777215 }
        busy := false, result := .done } ∧
      t.tap = s.tap ∧ t.clock = s.clock ∧ t.latches = s.latches ∧ t.bus = s.bus ∧ t.arbiter = s.arbiter ∧ t.pending = s.pending ∧
      t.powerOnHeld = s.powerOnHeld ∧ t.externalHeld = s.externalHeld ∧
      t.lamps = { s.lamps with goMark := t.lamps.goMark } ∧ t.detectors = { s.detectors with calls := t.detectors.calls } ∧
      t.parts = { s.parts with
        heldTimers := t.parts.heldTimers, heldElapsed := t.parts.heldElapsed, heldAges := t.parts.heldAges
        heldModeTimer := t.parts.heldModeTimer, heldLiveness := t.parts.heldLiveness } ∧
      t.link = { s.link with signs := t.link.signs, poll := t.link.poll } ∧
      (∀ r : SignNo,
        let was := s.store.nv.valid = true ∧ (s.active.signs.get r).used = true
        let is := (s.store.staging.signs.get r).used = true
        let kept := (was ∧ is ∧ (s.active.signs.get r).address = (s.store.staging.signs.get r).address) ∨ (¬was ∧ ¬is)
        t.link.signs.get r = (if kept then s.link.signs.get r else Sign.atReset) ∧
        ∀ p : Poll, s.link.poll = some p → p.record = r →
          t.link.poll = some { p with discarded := p.discarded || decide (¬kept) }) ∧
      (s.link.poll = none → t.link.poll = none) ∧
      (∀ g : GroupNo, s.configured g = true → t.configured g = true →
        t.detectors.calls.getLsbD g.val = s.detectors.calls.getLsbD g.val) ∧
      (∀ g : GroupNo, t.configured g = false → t.detectors.calls.getLsbD g.val = false ∧
        (s.configured g = true → t.group g = Group.unconfigured) ∧ (s.configured g = false → t.group g = s.group g)) ∧
      (∀ g : GroupNo, s.configured g = false → t.configured g = true →
        t.detectors.calls.getLsbD g.val = t.standing.getLsbD g.val) ∧
      (s.mode.mode ≠ .flash ∨ s.mode.normalPending = false →
        t.mode = s.mode ∧ t.page = s.page ∧
        t.parts.heldModeTimer = s.parts.heldModeTimer ∧ t.parts.heldLiveness = s.parts.heldLiveness ∧
        (∀ g, s.configured g = true → t.configured g = true → t.group g = s.group g) ∧
        ∀ g, s.configured g = false → t.configured g = true → s.group g = Group.unconfigured →
          t.group g = { Group.unconfigured with state := if s.mode.mode = .dark then .unlit else .flashing }) ∧
      (s.mode.mode = .flash → s.mode.normalPending = true →
        t.mode = { s.mode with
          mode := .allStop, cause := .software, normalPending := false, startFlashTimer := 0, allStopTimer := 0, flashEntryTimer := 0
          running := t.mode.running } ∧
        t.page = { s.page with liveness := 0 } ∧ t.parts.heldLiveness = s.parts.liveness ∧
        t.parts.heldModeTimer = (t.mode.running && s.parts.modeTimer) ∧
        ((∃ g, t.configured g = true) → (∀ g, s.configured g = true → (s.group g).state ≠ .stop) → t.mode.running = t.allStopped) ∧
        ∀ g, t.configured g = true → t.group g = atAllStop t g ∧
          (s.parts.sequencer = true →
            t.parts.heldTimers.getLsbD g.val = true ∧ t.parts.heldElapsed.getLsbD g.val = true)) ∧
      (s.queue.held.length ≤ 60 →
        let acts := s.mode.mode = .flash ∧ s.mode.normalPending = true
        let changes := (List.finRange 32).flatMap fun g =>
          if s.configured g = true ∧ t.configured g = false ∧ (s.group g).state ≠ .unlit then [groupRecord s g .unlit (s.group g).state]
          else if s.configured g = false ∧ t.configured g = true ∧ s.mode.mode ≠ .dark ∧ (s.group g).state ≠ .flashing
          then [groupRecord s g .flashing (s.group g).state] else []
        let orders := ((List.finRange 32).filter fun g => t.configured g = true).map fun g =>
          groupRecord s g (atAllStop t g).state (if s.configured g then (s.group g).state else .flashing)
        let mode := (EventKind.mode, lowWord s.clock, (0xFF : Byte), modeDetail .allStop .flash .software)
        t.queue.ofBlock .tableStore = s.queue.ofBlock .tableStore ++ [(.commit, lowWord s.clock, 0xFF, 4)] ∧
        t.queue.ofBlock .modeController = s.queue.ofBlock .modeController ++ (if acts then [mode] else []) ∧
        ((acts → ∀ g, s.configured g = true → (s.group g).state = .flashing ∨ (s.group g).state = .unlit) →
          t.queue.ofBlock .groupSequencer = s.queue.ofBlock .groupSequencer ++ changes ++ if acts then orders else []) ∧
        ∀ b, b ≠ .tableStore → b ≠ .modeController → b ≠ .groupSequencer → t.queue.ofBlock b = s.queue.ofBlock b))

/-- SERVICE_WRITE (R77, R81, R175, R176): the value written, with bytes not enabled read as 0, is added to SERVICE where the sum is at most
16,777,215, in every mode and with a commit in progress alike; a greater sum is refused with OVERFLOW and leaves the counter. SERVED_WRITE
of the service word does the same. That the queue notes the access, so that no two are at one moment, is the model's own
(notes/assumptions/41.md). -/
def Obligations.ServiceWriteAddsOrOverflows : Prop :=
  ∀ (s : State) (w : BusWrite), Taken s (requiredLevel s.tap.levelMap .serviceCounter) w →
    let n := (if w.enables.low then w.data.toNat % 256 else 0) + (if w.enables.high then w.data.toNat / 256 * 256 else 0)
    let sum := s.store.nv.service + n
    (sum ≤ 16777215 → exec (.serviceWrite w) s = .next { s with
      store := { s.store with nv := { s.store.nv with service := sum } }, queue := s.queue.atAccess, bus := ⟨none, none⟩ }) ∧
    (16777215 < sum → exec (.serviceWrite w) s = .next { s with
      queue := s.queue.atAccess.submit .refused (lowWord s.clock) 12 (refusedDetail .overflow w.level 5), bus := ⟨none, none⟩ }) ∧
    exec (.servedWrite 12 5 w) s = exec (.serviceWrite w) s

/-- Validation (R3, R169): a set passes exactly when it holds G from 1 to 32, a legal record for each configured group, no conflict of a
group with itself, a symmetric matrix, every intergreen of a conflict at least the clearing time, hold masks within the configured groups,
used sign records with distinct addresses to 16 and disjoint spans to channel 127, bound to configured groups or to none, required ones
bound, and the TIMING ranges; the violation reported is the first violated condition in the order V01 to V10, at the lowest index that
violates it, with the section of its code. -/
def Obligations.ValidTablesMeetTheConditions : Prop :=
  ∀ t : Tables,
    let g := t.timing.groupCount.toNat
    let x := t.timing
    (t.firstViolation = none ↔
      (1 ≤ g ∧ g ≤ 32) ∧
      (30 ≤ x.startFlash.toNat ∧ x.startFlash.toNat ≤ 600 ∧ 20 ≤ x.allStop.toNat ∧ x.allStop.toNat ≤ 100 ∧
        20 ≤ x.flashEntry.toNat ∧ x.flashEntry.toNat ≤ 100 ∧ 5 ≤ x.liveness.toNat ∧ x.liveness.toNat ≤ 100 ∧
        2 ≤ x.provingDelay.toNat ∧ x.provingDelay.toNat ≤ 10 ∧ x.refusalLimit.toNat ≤ 1023) ∧
      (∀ j i : GroupNo, j.val < g → i.val < g →
        t.conflictBit j j = false ∧ t.conflictBit j i = t.conflictBit i j ∧
        (t.conflictBit j i = true → (t.groups.get j).clearingTime.toNat ≤ t.intergreenOf j i)) ∧
      (∀ i : GroupNo, i.val < g →
        let r := t.groups.get i
        30 ≤ r.minimumGo.toNat ∧ r.minimumGo.toNat ≤ 600 ∧
        ((r.kind = 0 ∧ 10 ≤ r.prepareTime.toNat ∧ r.prepareTime.toNat ≤ 30 ∧ 30 ≤ r.clearingTime.toNat ∧
            r.clearingTime.toNat ≤ 60 ∧ r.aspect.toNat ≤ 2) ∨
          (r.kind = 1 ∧ r.prepareTime = 0 ∧ 20 ≤ r.clearingTime.toNat ∧ r.clearingTime.toNat ≤ 200 ∧ r.aspect = 0) ∨
          (r.kind = 2 ∧ r.prepareTime = 0 ∧ 20 ≤ r.clearingTime.toNat ∧ r.clearingTime.toNat ≤ 100 ∧
            (r.aspect = 0 ∨ r.aspect = 2)))) ∧
      (∀ i : GroupNo, g ≤ i.val → (t.holds.get 0).getLsbD i.val = false ∧ (t.holds.get 1).getLsbD i.val = false) ∧
      ∀ r : SignNo, (t.signs.get r).address ≠ 0 →
        let y := t.signs.get r
        y.address.toNat ≤ 16 ∧ 1 ≤ y.span.toNat ∧ y.span.toNat ≤ 16 ∧ y.start.toNat + y.span.toNat ≤ 128 ∧
        (y.bound = 0xFF → y.required = false) ∧ (y.bound ≠ 0xFF → y.bound.toNat < g) ∧
        ∀ q : SignNo, (t.signs.get q).address ≠ 0 → q ≠ r →
          (t.signs.get q).address ≠ y.address ∧ ¬∃ c, y.covers c = true ∧ (t.signs.get q).covers c = true) ∧
    ∀ code sec k, t.firstViolation = some (code, sec, k) ↔
      (1 ≤ code ∧ code ≤ 10) ∧ sec = violationSection code ∧ Violates t code k ∧ (∀ k', k' < k → ¬Violates t code k') ∧
      ∀ code', code' < code → ∀ k', ¬Violates t code' k'

/-! ### Invariants of the whole machine -/

/-- At the machine's reset every invariant holds, and so does it at the end of every reset of a state whose committed tables are valid and
whose counters are in range. The values of State.reset that the straps give are the model's choice (notes/assumptions/3.md). -/
def Obligations.ResetMeetsTheInvariants : Prop :=
  (SafetyInv State.reset ∧ IntergreenInv State.reset ∧ RangeInv State.reset ∧ TimersInRange State.reset ∧
    QueueInv State.reset.queue) ∧
  ∀ (s : State) (kind : ResetKind) (straps : BitVec 4) (closed : Bool),
    (s.store.nv.valid = true → s.active.firstViolation = none) → countersInRange s.store.nv →
    s.powerOnHeld = decide (kind = .powerOn) → s.externalHeld = decide (kind = .external) → ∃ t,
      exec (.resetEnd kind straps closed) s = .next t ∧ t.held = false ∧
      SafetyInv t ∧ IntergreenInv t ∧ RangeInv t ∧ TimersInRange t ∧ QueueInv t.queue

/-- Every step keeps the exclusion of conflicting movements (R37), the group states of each mode (R67), and valid tables (R172). -/
def Obligations.EveryStepKeepsTheSafetyInvariant : Prop :=
  ∀ s t : State, SafetyInv s → step s = .next t → SafetyInv t

/-- The safety invariant says what the manual promises (R37, R67, R172): in the flash modes and in DARK no GO line is driven; of two groups
in conflict one at most is in PREPARE or GO; and in ALL_STOP, NORMAL and TO_FLASH the active tables are valid. -/
def Obligations.SafetyInvariantKeepsMovementsApart : Prop :=
  ∀ s : State, SafetyInv s →
    (s.mode.mode = .startFlash ∨ s.mode.mode = .flash ∨ s.mode.mode = .dark ∨ s.mode.mode = .faultFlash →
      ∀ g, s.lineOn g .go = false) ∧
    (∀ j i, s.inConflict j i = true → (s.group j).state = .prepare ∨ (s.group j).state = .go →
      (s.group i).state ≠ .prepare ∧ (s.group i).state ≠ .go) ∧
    (s.mode.mode = .allStop ∨ s.mode.mode = .normal ∨ s.mode.mode = .toFlash →
      s.store.nv.valid = true ∧ s.store.nv.active.firstViolation = none)

/-- The intergreens (R25, R41): every step keeps the invariant that what is left of a running PREPARE covers what is left of every
intergreen into the group; and at a step in which a group enters GO, every configured group in conflict with it is in STOP and has E at
least the intergreen from it to the entering group. -/
def Obligations.IntergreensRunBeforeEveryGo : Prop :=
  ∀ s t : State, SafetyInv s → IntergreenInv s → step s = .next t →
    IntergreenInv t ∧
    ∀ j i, t.inConflict j i = true → (s.group i).state ≠ .go → (t.group i).state = .go →
      (t.group j).state = .stop ∧ t.active.intergreenOf j i ≤ (t.group j).elapsed

/-- Every step keeps the counted values that RangeInv names in range (R12, R26, R98, R101 to R103, R113, R119, R141, R149, R175), the
queue's shape with them, and under the safety invariant the timers within what valid tables give them (R47, R54); it clears no freeze, and a
lock flag only at the end of a power-on reset with the switch closed and the freeze clear (R166, R167); it lets no non-volatile counter fall
(R175). -/
def Obligations.EveryStepKeepsRangesAndCounters : Prop :=
  ∀ s t : State, RangeInv s → QueueInv s.queue → step s = .next t →
    RangeInv t ∧ QueueInv t.queue ∧ (SafetyInv s → TimersInRange s → TimersInRange t) ∧
    (s.store.nv.freeze = true → t.store.nv.freeze = true) ∧
    (∀ k, s.store.nv.lockFlags.getLsbD k = true → t.store.nv.lockFlags.getLsbD k = true ∨
      (s.store.nv.freeze = false ∧ ∃ straps rest, s.pending = .resetEnd .powerOn straps true :: rest)) ∧
    s.store.nv.faultEntries ≤ t.store.nv.faultEntries ∧ s.store.nv.livenessLosses ≤ t.store.nv.livenessLosses ∧
    s.store.nv.commits ≤ t.store.nv.commits ∧ s.store.nv.service ≤ t.store.nv.service
end

