-- ==== Sys2Proof/Laws/State.lean ====
section
/-! SUPPORT. One lemma per field and update: what each small update of the state leaves alone, and what it writes. -/

namespace Sys2Proof.Machine

open Sys2Proof

/-! ### setGroup -/

@[simp] theorem State.setGroup_powerOnHeld (s : State) (g : GroupNo) (x : Group) : (s.setGroup g x).powerOnHeld = s.powerOnHeld := rfl
@[simp] theorem State.setGroup_externalHeld (s : State) (g : GroupNo) (x : Group) : (s.setGroup g x).externalHeld = s.externalHeld := rfl
@[simp] theorem State.setGroup_clock (s : State) (g : GroupNo) (x : Group) : (s.setGroup g x).clock = s.clock := rfl
@[simp] theorem State.setGroup_arbiter (s : State) (g : GroupNo) (x : Group) : (s.setGroup g x).arbiter = s.arbiter := rfl
@[simp] theorem State.setGroup_mode (s : State) (g : GroupNo) (x : Group) : (s.setGroup g x).mode = s.mode := rfl
@[simp] theorem State.setGroup_page (s : State) (g : GroupNo) (x : Group) : (s.setGroup g x).page = s.page := rfl
@[simp] theorem State.setGroup_tap (s : State) (g : GroupNo) (x : Group) : (s.setGroup g x).tap = s.tap := rfl
@[simp] theorem State.setGroup_lamps (s : State) (g : GroupNo) (x : Group) : (s.setGroup g x).lamps = s.lamps := rfl
@[simp] theorem State.setGroup_detectors (s : State) (g : GroupNo) (x : Group) : (s.setGroup g x).detectors = s.detectors := rfl
@[simp] theorem State.setGroup_link (s : State) (g : GroupNo) (x : Group) : (s.setGroup g x).link = s.link := rfl
@[simp] theorem State.setGroup_queue (s : State) (g : GroupNo) (x : Group) : (s.setGroup g x).queue = s.queue := rfl
@[simp] theorem State.setGroup_store (s : State) (g : GroupNo) (x : Group) : (s.setGroup g x).store = s.store := rfl
@[simp] theorem State.setGroup_latches (s : State) (g : GroupNo) (x : Group) : (s.setGroup g x).latches = s.latches := rfl
@[simp] theorem State.setGroup_bus (s : State) (g : GroupNo) (x : Group) : (s.setGroup g x).bus = s.bus := rfl
@[simp] theorem State.setGroup_parts (s : State) (g : GroupNo) (x : Group) : (s.setGroup g x).parts = s.parts := rfl
@[simp] theorem State.setGroup_pending (s : State) (g : GroupNo) (x : Group) : (s.setGroup g x).pending = s.pending := rfl

/-! ### submit -/

@[simp] theorem submit_powerOnHeld (k : EventKind) (x : Byte) (d : Word) (s : State) : (submit k x d s).powerOnHeld = s.powerOnHeld := rfl
@[simp] theorem submit_externalHeld (k : EventKind) (x : Byte) (d : Word) (s : State) : (submit k x d s).externalHeld = s.externalHeld := rfl
@[simp] theorem submit_clock (k : EventKind) (x : Byte) (d : Word) (s : State) : (submit k x d s).clock = s.clock := rfl
@[simp] theorem submit_groups (k : EventKind) (x : Byte) (d : Word) (s : State) : (submit k x d s).groups = s.groups := rfl
@[simp] theorem submit_arbiter (k : EventKind) (x : Byte) (d : Word) (s : State) : (submit k x d s).arbiter = s.arbiter := rfl
@[simp] theorem submit_mode (k : EventKind) (x : Byte) (d : Word) (s : State) : (submit k x d s).mode = s.mode := rfl
@[simp] theorem submit_page (k : EventKind) (x : Byte) (d : Word) (s : State) : (submit k x d s).page = s.page := rfl
@[simp] theorem submit_tap (k : EventKind) (x : Byte) (d : Word) (s : State) : (submit k x d s).tap = s.tap := rfl
@[simp] theorem submit_lamps (k : EventKind) (x : Byte) (d : Word) (s : State) : (submit k x d s).lamps = s.lamps := rfl
@[simp] theorem submit_detectors (k : EventKind) (x : Byte) (d : Word) (s : State) : (submit k x d s).detectors = s.detectors := rfl
@[simp] theorem submit_link (k : EventKind) (x : Byte) (d : Word) (s : State) : (submit k x d s).link = s.link := rfl
@[simp] theorem submit_store (k : EventKind) (x : Byte) (d : Word) (s : State) : (submit k x d s).store = s.store := rfl
@[simp] theorem submit_latches (k : EventKind) (x : Byte) (d : Word) (s : State) : (submit k x d s).latches = s.latches := rfl
@[simp] theorem submit_bus (k : EventKind) (x : Byte) (d : Word) (s : State) : (submit k x d s).bus = s.bus := rfl
@[simp] theorem submit_parts (k : EventKind) (x : Byte) (d : Word) (s : State) : (submit k x d s).parts = s.parts := rfl
@[simp] theorem submit_pending (k : EventKind) (x : Byte) (d : Word) (s : State) : (submit k x d s).pending = s.pending := rfl

/-! ### setDetector -/

@[simp] theorem State.setDetector_powerOnHeld (s : State) (d : DetectorNo) (x : Detector) : (s.setDetector d x).powerOnHeld = s.powerOnHeld := rfl
@[simp] theorem State.setDetector_externalHeld (s : State) (d : DetectorNo) (x : Detector) : (s.setDetector d x).externalHeld = s.externalHeld := rfl
@[simp] theorem State.setDetector_clock (s : State) (d : DetectorNo) (x : Detector) : (s.setDetector d x).clock = s.clock := rfl
@[simp] theorem State.setDetector_groups (s : State) (d : DetectorNo) (x : Detector) : (s.setDetector d x).groups = s.groups := rfl
@[simp] theorem State.setDetector_arbiter (s : State) (d : DetectorNo) (x : Detector) : (s.setDetector d x).arbiter = s.arbiter := rfl
@[simp] theorem State.setDetector_mode (s : State) (d : DetectorNo) (x : Detector) : (s.setDetector d x).mode = s.mode := rfl
@[simp] theorem State.setDetector_page (s : State) (d : DetectorNo) (x : Detector) : (s.setDetector d x).page = s.page := rfl
@[simp] theorem State.setDetector_tap (s : State) (d : DetectorNo) (x : Detector) : (s.setDetector d x).tap = s.tap := rfl
@[simp] theorem State.setDetector_lamps (s : State) (d : DetectorNo) (x : Detector) : (s.setDetector d x).lamps = s.lamps := rfl
@[simp] theorem State.setDetector_link (s : State) (d : DetectorNo) (x : Detector) : (s.setDetector d x).link = s.link := rfl
@[simp] theorem State.setDetector_queue (s : State) (d : DetectorNo) (x : Detector) : (s.setDetector d x).queue = s.queue := rfl
@[simp] theorem State.setDetector_store (s : State) (d : DetectorNo) (x : Detector) : (s.setDetector d x).store = s.store := rfl
@[simp] theorem State.setDetector_latches (s : State) (d : DetectorNo) (x : Detector) : (s.setDetector d x).latches = s.latches := rfl
@[simp] theorem State.setDetector_bus (s : State) (d : DetectorNo) (x : Detector) : (s.setDetector d x).bus = s.bus := rfl
@[simp] theorem State.setDetector_parts (s : State) (d : DetectorNo) (x : Detector) : (s.setDetector d x).parts = s.parts := rfl
@[simp] theorem State.setDetector_pending (s : State) (d : DetectorNo) (x : Detector) : (s.setDetector d x).pending = s.pending := rfl

/-! ### setSign -/

@[simp] theorem State.setSign_powerOnHeld (s : State) (r : SignNo) (x : Sign) : (s.setSign r x).powerOnHeld = s.powerOnHeld := rfl
@[simp] theorem State.setSign_externalHeld (s : State) (r : SignNo) (x : Sign) : (s.setSign r x).externalHeld = s.externalHeld := rfl
@[simp] theorem State.setSign_clock (s : State) (r : SignNo) (x : Sign) : (s.setSign r x).clock = s.clock := rfl
@[simp] theorem State.setSign_groups (s : State) (r : SignNo) (x : Sign) : (s.setSign r x).groups = s.groups := rfl
@[simp] theorem State.setSign_arbiter (s : State) (r : SignNo) (x : Sign) : (s.setSign r x).arbiter = s.arbiter := rfl
@[simp] theorem State.setSign_mode (s : State) (r : SignNo) (x : Sign) : (s.setSign r x).mode = s.mode := rfl
@[simp] theorem State.setSign_page (s : State) (r : SignNo) (x : Sign) : (s.setSign r x).page = s.page := rfl
@[simp] theorem State.setSign_tap (s : State) (r : SignNo) (x : Sign) : (s.setSign r x).tap = s.tap := rfl
@[simp] theorem State.setSign_lamps (s : State) (r : SignNo) (x : Sign) : (s.setSign r x).lamps = s.lamps := rfl
@[simp] theorem State.setSign_detectors (s : State) (r : SignNo) (x : Sign) : (s.setSign r x).detectors = s.detectors := rfl
@[simp] theorem State.setSign_queue (s : State) (r : SignNo) (x : Sign) : (s.setSign r x).queue = s.queue := rfl
@[simp] theorem State.setSign_store (s : State) (r : SignNo) (x : Sign) : (s.setSign r x).store = s.store := rfl
@[simp] theorem State.setSign_latches (s : State) (r : SignNo) (x : Sign) : (s.setSign r x).latches = s.latches := rfl
@[simp] theorem State.setSign_bus (s : State) (r : SignNo) (x : Sign) : (s.setSign r x).bus = s.bus := rfl
@[simp] theorem State.setSign_parts (s : State) (r : SignNo) (x : Sign) : (s.setSign r x).parts = s.parts := rfl
@[simp] theorem State.setSign_pending (s : State) (r : SignNo) (x : Sign) : (s.setSign r x).pending = s.pending := rfl

/-! ### markGoLine -/

@[simp] theorem markGoLine_powerOnHeld (g : GroupNo) (s : State) : (markGoLine g s).powerOnHeld = s.powerOnHeld := rfl
@[simp] theorem markGoLine_externalHeld (g : GroupNo) (s : State) : (markGoLine g s).externalHeld = s.externalHeld := rfl
@[simp] theorem markGoLine_clock (g : GroupNo) (s : State) : (markGoLine g s).clock = s.clock := rfl
@[simp] theorem markGoLine_groups (g : GroupNo) (s : State) : (markGoLine g s).groups = s.groups := rfl
@[simp] theorem markGoLine_arbiter (g : GroupNo) (s : State) : (markGoLine g s).arbiter = s.arbiter := rfl
@[simp] theorem markGoLine_mode (g : GroupNo) (s : State) : (markGoLine g s).mode = s.mode := rfl
@[simp] theorem markGoLine_page (g : GroupNo) (s : State) : (markGoLine g s).page = s.page := rfl
@[simp] theorem markGoLine_tap (g : GroupNo) (s : State) : (markGoLine g s).tap = s.tap := rfl
@[simp] theorem markGoLine_detectors (g : GroupNo) (s : State) : (markGoLine g s).detectors = s.detectors := rfl
@[simp] theorem markGoLine_link (g : GroupNo) (s : State) : (markGoLine g s).link = s.link := rfl
@[simp] theorem markGoLine_queue (g : GroupNo) (s : State) : (markGoLine g s).queue = s.queue := rfl
@[simp] theorem markGoLine_store (g : GroupNo) (s : State) : (markGoLine g s).store = s.store := rfl
@[simp] theorem markGoLine_latches (g : GroupNo) (s : State) : (markGoLine g s).latches = s.latches := rfl
@[simp] theorem markGoLine_bus (g : GroupNo) (s : State) : (markGoLine g s).bus = s.bus := rfl
@[simp] theorem markGoLine_parts (g : GroupNo) (s : State) : (markGoLine g s).parts = s.parts := rfl
@[simp] theorem markGoLine_pending (g : GroupNo) (s : State) : (markGoLine g s).pending = s.pending := rfl

/-! ### clearCalls -/

@[simp] theorem clearCalls_powerOnHeld (m : Mask) (s : State) : (clearCalls m s).powerOnHeld = s.powerOnHeld := rfl
@[simp] theorem clearCalls_externalHeld (m : Mask) (s : State) : (clearCalls m s).externalHeld = s.externalHeld := rfl
@[simp] theorem clearCalls_clock (m : Mask) (s : State) : (clearCalls m s).clock = s.clock := rfl
@[simp] theorem clearCalls_groups (m : Mask) (s : State) : (clearCalls m s).groups = s.groups := rfl
@[simp] theorem clearCalls_arbiter (m : Mask) (s : State) : (clearCalls m s).arbiter = s.arbiter := rfl
@[simp] theorem clearCalls_mode (m : Mask) (s : State) : (clearCalls m s).mode = s.mode := rfl
@[simp] theorem clearCalls_page (m : Mask) (s : State) : (clearCalls m s).page = s.page := rfl
@[simp] theorem clearCalls_tap (m : Mask) (s : State) : (clearCalls m s).tap = s.tap := rfl
@[simp] theorem clearCalls_lamps (m : Mask) (s : State) : (clearCalls m s).lamps = s.lamps := rfl
@[simp] theorem clearCalls_link (m : Mask) (s : State) : (clearCalls m s).link = s.link := rfl
@[simp] theorem clearCalls_queue (m : Mask) (s : State) : (clearCalls m s).queue = s.queue := rfl
@[simp] theorem clearCalls_store (m : Mask) (s : State) : (clearCalls m s).store = s.store := rfl
@[simp] theorem clearCalls_latches (m : Mask) (s : State) : (clearCalls m s).latches = s.latches := rfl
@[simp] theorem clearCalls_bus (m : Mask) (s : State) : (clearCalls m s).bus = s.bus := rfl
@[simp] theorem clearCalls_parts (m : Mask) (s : State) : (clearCalls m s).parts = s.parts := rfl
@[simp] theorem clearCalls_pending (m : Mask) (s : State) : (clearCalls m s).pending = s.pending := rfl

/-! ### setCalls -/

@[simp] theorem setCalls_powerOnHeld (m : Mask) (s : State) : (setCalls m s).powerOnHeld = s.powerOnHeld := rfl
@[simp] theorem setCalls_externalHeld (m : Mask) (s : State) : (setCalls m s).externalHeld = s.externalHeld := rfl
@[simp] theorem setCalls_clock (m : Mask) (s : State) : (setCalls m s).clock = s.clock := rfl
@[simp] theorem setCalls_groups (m : Mask) (s : State) : (setCalls m s).groups = s.groups := rfl
@[simp] theorem setCalls_arbiter (m : Mask) (s : State) : (setCalls m s).arbiter = s.arbiter := rfl
@[simp] theorem setCalls_mode (m : Mask) (s : State) : (setCalls m s).mode = s.mode := rfl
@[simp] theorem setCalls_page (m : Mask) (s : State) : (setCalls m s).page = s.page := rfl
@[simp] theorem setCalls_tap (m : Mask) (s : State) : (setCalls m s).tap = s.tap := rfl
@[simp] theorem setCalls_lamps (m : Mask) (s : State) : (setCalls m s).lamps = s.lamps := rfl
@[simp] theorem setCalls_link (m : Mask) (s : State) : (setCalls m s).link = s.link := rfl
@[simp] theorem setCalls_queue (m : Mask) (s : State) : (setCalls m s).queue = s.queue := rfl
@[simp] theorem setCalls_store (m : Mask) (s : State) : (setCalls m s).store = s.store := rfl
@[simp] theorem setCalls_latches (m : Mask) (s : State) : (setCalls m s).latches = s.latches := rfl
@[simp] theorem setCalls_bus (m : Mask) (s : State) : (setCalls m s).bus = s.bus := rfl
@[simp] theorem setCalls_parts (m : Mask) (s : State) : (setCalls m s).parts = s.parts := rfl
@[simp] theorem setCalls_pending (m : Mask) (s : State) : (setCalls m s).pending = s.pending := rfl

/-! ### setMode -/

@[simp] theorem setMode_powerOnHeld (m : Mode) (c : Cause) (s : State) : (setMode m c s).powerOnHeld = s.powerOnHeld := rfl
@[simp] theorem setMode_externalHeld (m : Mode) (c : Cause) (s : State) : (setMode m c s).externalHeld = s.externalHeld := rfl
@[simp] theorem setMode_clock (m : Mode) (c : Cause) (s : State) : (setMode m c s).clock = s.clock := rfl
@[simp] theorem setMode_groups (m : Mode) (c : Cause) (s : State) : (setMode m c s).groups = s.groups := rfl
@[simp] theorem setMode_arbiter (m : Mode) (c : Cause) (s : State) : (setMode m c s).arbiter = s.arbiter := rfl
@[simp] theorem setMode_tap (m : Mode) (c : Cause) (s : State) : (setMode m c s).tap = s.tap := rfl
@[simp] theorem setMode_lamps (m : Mode) (c : Cause) (s : State) : (setMode m c s).lamps = s.lamps := rfl
@[simp] theorem setMode_detectors (m : Mode) (c : Cause) (s : State) : (setMode m c s).detectors = s.detectors := rfl
@[simp] theorem setMode_link (m : Mode) (c : Cause) (s : State) : (setMode m c s).link = s.link := rfl
@[simp] theorem setMode_queue (m : Mode) (c : Cause) (s : State) : (setMode m c s).queue = s.queue := rfl
@[simp] theorem setMode_store (m : Mode) (c : Cause) (s : State) : (setMode m c s).store = s.store := rfl
@[simp] theorem setMode_latches (m : Mode) (c : Cause) (s : State) : (setMode m c s).latches = s.latches := rfl
@[simp] theorem setMode_bus (m : Mode) (c : Cause) (s : State) : (setMode m c s).bus = s.bus := rfl
@[simp] theorem setMode_pending (m : Mode) (c : Cause) (s : State) : (setMode m c s).pending = s.pending := rfl

/-! ### setNormalPending -/

@[simp] theorem setNormalPending_powerOnHeld (b : Bool) (s : State) : (setNormalPending b s).powerOnHeld = s.powerOnHeld := rfl
@[simp] theorem setNormalPending_externalHeld (b : Bool) (s : State) : (setNormalPending b s).externalHeld = s.externalHeld := rfl
@[simp] theorem setNormalPending_clock (b : Bool) (s : State) : (setNormalPending b s).clock = s.clock := rfl
@[simp] theorem setNormalPending_groups (b : Bool) (s : State) : (setNormalPending b s).groups = s.groups := rfl
@[simp] theorem setNormalPending_arbiter (b : Bool) (s : State) : (setNormalPending b s).arbiter = s.arbiter := rfl
@[simp] theorem setNormalPending_page (b : Bool) (s : State) : (setNormalPending b s).page = s.page := rfl
@[simp] theorem setNormalPending_tap (b : Bool) (s : State) : (setNormalPending b s).tap = s.tap := rfl
@[simp] theorem setNormalPending_lamps (b : Bool) (s : State) : (setNormalPending b s).lamps = s.lamps := rfl
@[simp] theorem setNormalPending_detectors (b : Bool) (s : State) : (setNormalPending b s).detectors = s.detectors := rfl
@[simp] theorem setNormalPending_link (b : Bool) (s : State) : (setNormalPending b s).link = s.link := rfl
@[simp] theorem setNormalPending_queue (b : Bool) (s : State) : (setNormalPending b s).queue = s.queue := rfl
@[simp] theorem setNormalPending_store (b : Bool) (s : State) : (setNormalPending b s).store = s.store := rfl
@[simp] theorem setNormalPending_latches (b : Bool) (s : State) : (setNormalPending b s).latches = s.latches := rfl
@[simp] theorem setNormalPending_bus (b : Bool) (s : State) : (setNormalPending b s).bus = s.bus := rfl
@[simp] theorem setNormalPending_parts (b : Bool) (s : State) : (setNormalPending b s).parts = s.parts := rfl
@[simp] theorem setNormalPending_pending (b : Bool) (s : State) : (setNormalPending b s).pending = s.pending := rfl

/-! ### setResult -/

@[simp] theorem setResult_powerOnHeld (r : CommitResult) (s : State) : (setResult r s).powerOnHeld = s.powerOnHeld := rfl
@[simp] theorem setResult_externalHeld (r : CommitResult) (s : State) : (setResult r s).externalHeld = s.externalHeld := rfl
@[simp] theorem setResult_clock (r : CommitResult) (s : State) : (setResult r s).clock = s.clock := rfl
@[simp] theorem setResult_groups (r : CommitResult) (s : State) : (setResult r s).groups = s.groups := rfl
@[simp] theorem setResult_arbiter (r : CommitResult) (s : State) : (setResult r s).arbiter = s.arbiter := rfl
@[simp] theorem setResult_mode (r : CommitResult) (s : State) : (setResult r s).mode = s.mode := rfl
@[simp] theorem setResult_page (r : CommitResult) (s : State) : (setResult r s).page = s.page := rfl
@[simp] theorem setResult_tap (r : CommitResult) (s : State) : (setResult r s).tap = s.tap := rfl
@[simp] theorem setResult_lamps (r : CommitResult) (s : State) : (setResult r s).lamps = s.lamps := rfl
@[simp] theorem setResult_detectors (r : CommitResult) (s : State) : (setResult r s).detectors = s.detectors := rfl
@[simp] theorem setResult_link (r : CommitResult) (s : State) : (setResult r s).link = s.link := rfl
@[simp] theorem setResult_queue (r : CommitResult) (s : State) : (setResult r s).queue = s.queue := rfl
@[simp] theorem setResult_latches (r : CommitResult) (s : State) : (setResult r s).latches = s.latches := rfl
@[simp] theorem setResult_bus (r : CommitResult) (s : State) : (setResult r s).bus = s.bus := rfl
@[simp] theorem setResult_parts (r : CommitResult) (s : State) : (setResult r s).parts = s.parts := rfl
@[simp] theorem setResult_pending (r : CommitResult) (s : State) : (setResult r s).pending = s.pending := rfl

/-! ### setRefusals -/

@[simp] theorem setRefusals_powerOnHeld (n : Nat) (s : State) : (setRefusals n s).powerOnHeld = s.powerOnHeld := rfl
@[simp] theorem setRefusals_externalHeld (n : Nat) (s : State) : (setRefusals n s).externalHeld = s.externalHeld := rfl
@[simp] theorem setRefusals_clock (n : Nat) (s : State) : (setRefusals n s).clock = s.clock := rfl
@[simp] theorem setRefusals_groups (n : Nat) (s : State) : (setRefusals n s).groups = s.groups := rfl
@[simp] theorem setRefusals_arbiter (n : Nat) (s : State) : (setRefusals n s).arbiter = s.arbiter := rfl
@[simp] theorem setRefusals_mode (n : Nat) (s : State) : (setRefusals n s).mode = s.mode := rfl
@[simp] theorem setRefusals_tap (n : Nat) (s : State) : (setRefusals n s).tap = s.tap := rfl
@[simp] theorem setRefusals_lamps (n : Nat) (s : State) : (setRefusals n s).lamps = s.lamps := rfl
@[simp] theorem setRefusals_detectors (n : Nat) (s : State) : (setRefusals n s).detectors = s.detectors := rfl
@[simp] theorem setRefusals_link (n : Nat) (s : State) : (setRefusals n s).link = s.link := rfl
@[simp] theorem setRefusals_queue (n : Nat) (s : State) : (setRefusals n s).queue = s.queue := rfl
@[simp] theorem setRefusals_store (n : Nat) (s : State) : (setRefusals n s).store = s.store := rfl
@[simp] theorem setRefusals_latches (n : Nat) (s : State) : (setRefusals n s).latches = s.latches := rfl
@[simp] theorem setRefusals_bus (n : Nat) (s : State) : (setRefusals n s).bus = s.bus := rfl
@[simp] theorem setRefusals_parts (n : Nat) (s : State) : (setRefusals n s).parts = s.parts := rfl
@[simp] theorem setRefusals_pending (n : Nat) (s : State) : (setRefusals n s).pending = s.pending := rfl

/-! ### answerRead -/

@[simp] theorem answerRead_powerOnHeld (v : Word) (s : State) : (answerRead v s).powerOnHeld = s.powerOnHeld := rfl
@[simp] theorem answerRead_externalHeld (v : Word) (s : State) : (answerRead v s).externalHeld = s.externalHeld := rfl
@[simp] theorem answerRead_clock (v : Word) (s : State) : (answerRead v s).clock = s.clock := rfl
@[simp] theorem answerRead_groups (v : Word) (s : State) : (answerRead v s).groups = s.groups := rfl
@[simp] theorem answerRead_arbiter (v : Word) (s : State) : (answerRead v s).arbiter = s.arbiter := rfl
@[simp] theorem answerRead_mode (v : Word) (s : State) : (answerRead v s).mode = s.mode := rfl
@[simp] theorem answerRead_page (v : Word) (s : State) : (answerRead v s).page = s.page := rfl
@[simp] theorem answerRead_tap (v : Word) (s : State) : (answerRead v s).tap = s.tap := rfl
@[simp] theorem answerRead_lamps (v : Word) (s : State) : (answerRead v s).lamps = s.lamps := rfl
@[simp] theorem answerRead_detectors (v : Word) (s : State) : (answerRead v s).detectors = s.detectors := rfl
@[simp] theorem answerRead_link (v : Word) (s : State) : (answerRead v s).link = s.link := rfl
@[simp] theorem answerRead_queue (v : Word) (s : State) : (answerRead v s).queue = s.queue := rfl
@[simp] theorem answerRead_store (v : Word) (s : State) : (answerRead v s).store = s.store := rfl
@[simp] theorem answerRead_latches (v : Word) (s : State) : (answerRead v s).latches = s.latches := rfl
@[simp] theorem answerRead_parts (v : Word) (s : State) : (answerRead v s).parts = s.parts := rfl
@[simp] theorem answerRead_pending (v : Word) (s : State) : (answerRead v s).pending = s.pending := rfl

/-! ### beginAccess -/

@[simp] theorem beginAccess_powerOnHeld (s : State) : (beginAccess s).powerOnHeld = s.powerOnHeld := rfl
@[simp] theorem beginAccess_externalHeld (s : State) : (beginAccess s).externalHeld = s.externalHeld := rfl
@[simp] theorem beginAccess_clock (s : State) : (beginAccess s).clock = s.clock := rfl
@[simp] theorem beginAccess_groups (s : State) : (beginAccess s).groups = s.groups := rfl
@[simp] theorem beginAccess_arbiter (s : State) : (beginAccess s).arbiter = s.arbiter := rfl
@[simp] theorem beginAccess_mode (s : State) : (beginAccess s).mode = s.mode := rfl
@[simp] theorem beginAccess_page (s : State) : (beginAccess s).page = s.page := rfl
@[simp] theorem beginAccess_tap (s : State) : (beginAccess s).tap = s.tap := rfl
@[simp] theorem beginAccess_lamps (s : State) : (beginAccess s).lamps = s.lamps := rfl
@[simp] theorem beginAccess_detectors (s : State) : (beginAccess s).detectors = s.detectors := rfl
@[simp] theorem beginAccess_link (s : State) : (beginAccess s).link = s.link := rfl
@[simp] theorem beginAccess_queue (s : State) : (beginAccess s).queue = s.queue.atAccess := rfl
@[simp] theorem beginAccess_store (s : State) : (beginAccess s).store = s.store := rfl
@[simp] theorem beginAccess_latches (s : State) : (beginAccess s).latches = s.latches := rfl
@[simp] theorem beginAccess_parts (s : State) : (beginAccess s).parts = s.parts := rfl
@[simp] theorem beginAccess_pending (s : State) : (beginAccess s).pending = s.pending := rfl

/-! ### passWrite -/

@[simp] theorem passWrite_powerOnHeld (a : Addr) (w : BusWrite) (s : State) : (passWrite a w s).powerOnHeld = s.powerOnHeld := rfl
@[simp] theorem passWrite_externalHeld (a : Addr) (w : BusWrite) (s : State) : (passWrite a w s).externalHeld = s.externalHeld := rfl
@[simp] theorem passWrite_clock (a : Addr) (w : BusWrite) (s : State) : (passWrite a w s).clock = s.clock := rfl
@[simp] theorem passWrite_groups (a : Addr) (w : BusWrite) (s : State) : (passWrite a w s).groups = s.groups := rfl
@[simp] theorem passWrite_arbiter (a : Addr) (w : BusWrite) (s : State) : (passWrite a w s).arbiter = s.arbiter := rfl
@[simp] theorem passWrite_mode (a : Addr) (w : BusWrite) (s : State) : (passWrite a w s).mode = s.mode := rfl
@[simp] theorem passWrite_page (a : Addr) (w : BusWrite) (s : State) : (passWrite a w s).page = s.page := rfl
@[simp] theorem passWrite_tap (a : Addr) (w : BusWrite) (s : State) : (passWrite a w s).tap = s.tap := rfl
@[simp] theorem passWrite_lamps (a : Addr) (w : BusWrite) (s : State) : (passWrite a w s).lamps = s.lamps := rfl
@[simp] theorem passWrite_detectors (a : Addr) (w : BusWrite) (s : State) : (passWrite a w s).detectors = s.detectors := rfl
@[simp] theorem passWrite_link (a : Addr) (w : BusWrite) (s : State) : (passWrite a w s).link = s.link := rfl
@[simp] theorem passWrite_queue (a : Addr) (w : BusWrite) (s : State) : (passWrite a w s).queue = s.queue := rfl
@[simp] theorem passWrite_store (a : Addr) (w : BusWrite) (s : State) : (passWrite a w s).store = s.store := rfl
@[simp] theorem passWrite_latches (a : Addr) (w : BusWrite) (s : State) : (passWrite a w s).latches = s.latches := rfl
@[simp] theorem passWrite_parts (a : Addr) (w : BusWrite) (s : State) : (passWrite a w s).parts = s.parts := rfl
@[simp] theorem passWrite_pending (a : Addr) (w : BusWrite) (s : State) : (passWrite a w s).pending = s.pending := rfl

/-! ### passRead -/

@[simp] theorem passRead_powerOnHeld (a : Addr) (e : ByteEnables) (m : Word) (s : State) : (passRead a e m s).powerOnHeld = s.powerOnHeld := rfl
@[simp] theorem passRead_externalHeld (a : Addr) (e : ByteEnables) (m : Word) (s : State) : (passRead a e m s).externalHeld = s.externalHeld := rfl
@[simp] theorem passRead_clock (a : Addr) (e : ByteEnables) (m : Word) (s : State) : (passRead a e m s).clock = s.clock := rfl
@[simp] theorem passRead_groups (a : Addr) (e : ByteEnables) (m : Word) (s : State) : (passRead a e m s).groups = s.groups := rfl
@[simp] theorem passRead_arbiter (a : Addr) (e : ByteEnables) (m : Word) (s : State) : (passRead a e m s).arbiter = s.arbiter := rfl
@[simp] theorem passRead_mode (a : Addr) (e : ByteEnables) (m : Word) (s : State) : (passRead a e m s).mode = s.mode := rfl
@[simp] theorem passRead_page (a : Addr) (e : ByteEnables) (m : Word) (s : State) : (passRead a e m s).page = s.page := rfl
@[simp] theorem passRead_tap (a : Addr) (e : ByteEnables) (m : Word) (s : State) : (passRead a e m s).tap = s.tap := rfl
@[simp] theorem passRead_lamps (a : Addr) (e : ByteEnables) (m : Word) (s : State) : (passRead a e m s).lamps = s.lamps := rfl
@[simp] theorem passRead_detectors (a : Addr) (e : ByteEnables) (m : Word) (s : State) : (passRead a e m s).detectors = s.detectors := rfl
@[simp] theorem passRead_link (a : Addr) (e : ByteEnables) (m : Word) (s : State) : (passRead a e m s).link = s.link := rfl
@[simp] theorem passRead_queue (a : Addr) (e : ByteEnables) (m : Word) (s : State) : (passRead a e m s).queue = s.queue := rfl
@[simp] theorem passRead_store (a : Addr) (e : ByteEnables) (m : Word) (s : State) : (passRead a e m s).store = s.store := rfl
@[simp] theorem passRead_latches (a : Addr) (e : ByteEnables) (m : Word) (s : State) : (passRead a e m s).latches = s.latches := rfl
@[simp] theorem passRead_parts (a : Addr) (e : ByteEnables) (m : Word) (s : State) : (passRead a e m s).parts = s.parts := rfl
@[simp] theorem passRead_pending (a : Addr) (e : ByteEnables) (m : Word) (s : State) : (passRead a e m s).pending = s.pending := rfl

/-! ### forwardWord -/

@[simp] theorem forwardWord_powerOnHeld (n : Nat) (v : Word) (s : State) : (forwardWord n v s).powerOnHeld = s.powerOnHeld := rfl
@[simp] theorem forwardWord_externalHeld (n : Nat) (v : Word) (s : State) : (forwardWord n v s).externalHeld = s.externalHeld := rfl
@[simp] theorem forwardWord_clock (n : Nat) (v : Word) (s : State) : (forwardWord n v s).clock = s.clock := rfl
@[simp] theorem forwardWord_groups (n : Nat) (v : Word) (s : State) : (forwardWord n v s).groups = s.groups := rfl
@[simp] theorem forwardWord_arbiter (n : Nat) (v : Word) (s : State) : (forwardWord n v s).arbiter = s.arbiter := rfl
@[simp] theorem forwardWord_mode (n : Nat) (v : Word) (s : State) : (forwardWord n v s).mode = s.mode := rfl
@[simp] theorem forwardWord_tap (n : Nat) (v : Word) (s : State) : (forwardWord n v s).tap = s.tap := rfl
@[simp] theorem forwardWord_lamps (n : Nat) (v : Word) (s : State) : (forwardWord n v s).lamps = s.lamps := rfl
@[simp] theorem forwardWord_detectors (n : Nat) (v : Word) (s : State) : (forwardWord n v s).detectors = s.detectors := rfl
@[simp] theorem forwardWord_link (n : Nat) (v : Word) (s : State) : (forwardWord n v s).link = s.link := rfl
@[simp] theorem forwardWord_queue (n : Nat) (v : Word) (s : State) : (forwardWord n v s).queue = s.queue := rfl
@[simp] theorem forwardWord_store (n : Nat) (v : Word) (s : State) : (forwardWord n v s).store = s.store := rfl
@[simp] theorem forwardWord_latches (n : Nat) (v : Word) (s : State) : (forwardWord n v s).latches = s.latches := rfl
@[simp] theorem forwardWord_parts (n : Nat) (v : Word) (s : State) : (forwardWord n v s).parts = s.parts := rfl
@[simp] theorem forwardWord_pending (n : Nat) (v : Word) (s : State) : (forwardWord n v s).pending = s.pending := rfl

/-! ### requestAccepted -/

@[simp] theorem requestAccepted_powerOnHeld (s : State) : (requestAccepted s).powerOnHeld = s.powerOnHeld := rfl
@[simp] theorem requestAccepted_externalHeld (s : State) : (requestAccepted s).externalHeld = s.externalHeld := rfl
@[simp] theorem requestAccepted_clock (s : State) : (requestAccepted s).clock = s.clock := rfl
@[simp] theorem requestAccepted_groups (s : State) : (requestAccepted s).groups = s.groups := rfl
@[simp] theorem requestAccepted_arbiter (s : State) : (requestAccepted s).arbiter = s.arbiter := rfl
@[simp] theorem requestAccepted_mode (s : State) : (requestAccepted s).mode = s.mode := rfl
@[simp] theorem requestAccepted_tap (s : State) : (requestAccepted s).tap = s.tap := rfl
@[simp] theorem requestAccepted_lamps (s : State) : (requestAccepted s).lamps = s.lamps := rfl
@[simp] theorem requestAccepted_detectors (s : State) : (requestAccepted s).detectors = s.detectors := rfl
@[simp] theorem requestAccepted_link (s : State) : (requestAccepted s).link = s.link := rfl
@[simp] theorem requestAccepted_queue (s : State) : (requestAccepted s).queue = s.queue := rfl
@[simp] theorem requestAccepted_store (s : State) : (requestAccepted s).store = s.store := rfl
@[simp] theorem requestAccepted_latches (s : State) : (requestAccepted s).latches = s.latches := rfl
@[simp] theorem requestAccepted_bus (s : State) : (requestAccepted s).bus = s.bus := rfl
@[simp] theorem requestAccepted_parts (s : State) : (requestAccepted s).parts = s.parts := rfl
@[simp] theorem requestAccepted_pending (s : State) : (requestAccepted s).pending = s.pending := rfl

/-! ### takeRecord -/

@[simp] theorem takeRecord_powerOnHeld (r : Reader) (s : State) : (takeRecord r s).powerOnHeld = s.powerOnHeld := rfl
@[simp] theorem takeRecord_externalHeld (r : Reader) (s : State) : (takeRecord r s).externalHeld = s.externalHeld := rfl
@[simp] theorem takeRecord_clock (r : Reader) (s : State) : (takeRecord r s).clock = s.clock := rfl
@[simp] theorem takeRecord_groups (r : Reader) (s : State) : (takeRecord r s).groups = s.groups := rfl
@[simp] theorem takeRecord_arbiter (r : Reader) (s : State) : (takeRecord r s).arbiter = s.arbiter := rfl
@[simp] theorem takeRecord_mode (r : Reader) (s : State) : (takeRecord r s).mode = s.mode := rfl
@[simp] theorem takeRecord_page (r : Reader) (s : State) : (takeRecord r s).page = s.page := rfl
@[simp] theorem takeRecord_tap (r : Reader) (s : State) : (takeRecord r s).tap = s.tap := rfl
@[simp] theorem takeRecord_lamps (r : Reader) (s : State) : (takeRecord r s).lamps = s.lamps := rfl
@[simp] theorem takeRecord_detectors (r : Reader) (s : State) : (takeRecord r s).detectors = s.detectors := rfl
@[simp] theorem takeRecord_link (r : Reader) (s : State) : (takeRecord r s).link = s.link := rfl
@[simp] theorem takeRecord_store (r : Reader) (s : State) : (takeRecord r s).store = s.store := rfl
@[simp] theorem takeRecord_latches (r : Reader) (s : State) : (takeRecord r s).latches = s.latches := rfl
@[simp] theorem takeRecord_bus (r : Reader) (s : State) : (takeRecord r s).bus = s.bus := rfl
@[simp] theorem takeRecord_parts (r : Reader) (s : State) : (takeRecord r s).parts = s.parts := rfl
@[simp] theorem takeRecord_pending (r : Reader) (s : State) : (takeRecord r s).pending = s.pending := rfl

/-! ### endPoll -/

@[simp] theorem endPoll_powerOnHeld (s : State) : (endPoll s).powerOnHeld = s.powerOnHeld := rfl
@[simp] theorem endPoll_externalHeld (s : State) : (endPoll s).externalHeld = s.externalHeld := rfl
@[simp] theorem endPoll_clock (s : State) : (endPoll s).clock = s.clock := rfl
@[simp] theorem endPoll_groups (s : State) : (endPoll s).groups = s.groups := rfl
@[simp] theorem endPoll_arbiter (s : State) : (endPoll s).arbiter = s.arbiter := rfl
@[simp] theorem endPoll_mode (s : State) : (endPoll s).mode = s.mode := rfl
@[simp] theorem endPoll_page (s : State) : (endPoll s).page = s.page := rfl
@[simp] theorem endPoll_tap (s : State) : (endPoll s).tap = s.tap := rfl
@[simp] theorem endPoll_lamps (s : State) : (endPoll s).lamps = s.lamps := rfl
@[simp] theorem endPoll_detectors (s : State) : (endPoll s).detectors = s.detectors := rfl
@[simp] theorem endPoll_queue (s : State) : (endPoll s).queue = s.queue := rfl
@[simp] theorem endPoll_store (s : State) : (endPoll s).store = s.store := rfl
@[simp] theorem endPoll_latches (s : State) : (endPoll s).latches = s.latches := rfl
@[simp] theorem endPoll_bus (s : State) : (endPoll s).bus = s.bus := rfl
@[simp] theorem endPoll_parts (s : State) : (endPoll s).parts = s.parts := rfl
@[simp] theorem endPoll_pending (s : State) : (endPoll s).pending = s.pending := rfl

/-! ### What the updates write -/

@[simp] theorem submit_queue (k : EventKind) (x : Byte) (d : Word) (s : State) :
    (submit k x d s).queue = s.queue.submit k (lowWord s.clock) x d := rfl
@[simp] theorem submit_group (k : EventKind) (x : Byte) (d : Word) (s : State) (g : GroupNo) :
    (submit k x d s).group g = s.group g := rfl
@[simp] theorem submit_detector (k : EventKind) (x : Byte) (d : Word) (s : State) (e : DetectorNo) :
    (submit k x d s).detector e = s.detector e := rfl
@[simp] theorem takeRecord_queue (r : Reader) (s : State) : (takeRecord r s).queue = s.queue.take r := rfl

/-- An entry of a vector by its place. -/
theorem vector_get {α : Type} {n : Nat} (v : Vector α n) (i : Fin n) : v.get i = v[i.val] := rfl

theorem vector_get_set_self {α : Type} {n : Nat} (v : Vector α n) (i : Fin n) (x : α) : (v.set i x).get i = x := by
  rw [vector_get]; exact Vector.getElem_set_self i.isLt

theorem vector_get_set_ne {α : Type} {n : Nat} (v : Vector α n) {i j : Fin n} (x : α) (h : j ≠ i) :
    (v.set i x).get j = v.get j := by
  rw [vector_get, vector_get]; exact Vector.getElem_set_ne i.isLt j.isLt fun e => h (Fin.ext e.symm)

theorem vector_get_ofFn {α : Type} {n : Nat} (f : Fin n → α) (i : Fin n) : (Vector.ofFn f).get i = f i := by
  rw [vector_get]; exact Vector.getElem_ofFn i.isLt

@[simp] theorem State.setGroup_group_self (s : State) (g : GroupNo) (x : Group) : (s.setGroup g x).group g = x :=
  vector_get_set_self _ _ _

theorem State.setGroup_group_ne (s : State) {g h : GroupNo} (x : Group) (hn : h ≠ g) : (s.setGroup g x).group h = s.group h :=
  vector_get_set_ne _ _ hn

@[simp] theorem State.setDetector_detector_self (s : State) (d : DetectorNo) (x : Detector) :
    (s.setDetector d x).detector d = x := vector_get_set_self _ _ _

theorem State.setDetector_detector_ne (s : State) {d e : DetectorNo} (x : Detector) (hn : e ≠ d) :
    (s.setDetector d x).detector e = s.detector e := vector_get_set_ne _ _ hn

@[simp] theorem State.setSign_self (s : State) (r : SignNo) (x : Sign) : (s.setSign r x).link.signs.get r = x :=
  vector_get_set_self _ _ _

theorem State.setSign_ne (s : State) {r q : SignNo} (x : Sign) (hn : q ≠ r) :
    (s.setSign r x).link.signs.get q = s.link.signs.get q := vector_get_set_ne _ _ hn

end Sys2Proof.Machine
end

