-- ==== Sys2Proof/Laws/Bus.lean ====
section
/-! SUPPORT. The bus tap once: what an access reduces to while a reset is held, for a dropped write, and for a write that passes its
checks (R71, R75, R77, R81, R82). -/

namespace Sys2Proof.Machine

open Sys2Proof

/-! ### Levels, byte enables -/

theorem levelPasses_eq (access required : Level) : levelPasses access required = decide (access.toNat ≤ required.toNat) := by
  simp [levelPasses, BitVec.le_def]

/-- A merged word bit by bit: the data where the bit's byte is enabled, the stored word elsewhere (R81). -/
theorem mergeBytes_getLsbD (old data : Word) (e : ByteEnables) (k : Nat) (hk : k < 16) :
    (mergeBytes old data e).getLsbD k = if (if k < 8 then e.low else e.high) then data.getLsbD k else old.getLsbD k := by
  rcases e with ⟨lo, hi⟩
  simp only [mergeBytes, BitVec.getLsbD_append]
  by_cases h : k < 8
  · cases lo <;> simp [h]
  · have h8 : k - 8 < 8 := by omega
    have e8 : 8 + (k - 8) = k := by omega
    cases hi <;> simp [h, h8, e8]

@[simp] theorem mergeBytes_both (old data : Word) : mergeBytes old data ⟨true, true⟩ = data := by
  apply BitVec.eq_of_getLsbD_eq
  intro k hk
  simp [mergeBytes_getLsbD old data _ k hk]

@[simp] theorem mergeBytes_none (old data : Word) : mergeBytes old data ⟨false, false⟩ = old := by
  apply BitVec.eq_of_getLsbD_eq
  intro k hk
  simp [mergeBytes_getLsbD old data _ k hk]

/-- The data of a write to a command word as a number: the enabled bytes (R81, R176). -/
theorem takenData_toNat (w : BusWrite) : (takenData w).toNat =
    (if w.enables.low then w.data.toNat % 256 else 0) + (if w.enables.high then w.data.toNat / 256 * 256 else 0) := by
  rcases w with ⟨d, ⟨lo, hi⟩, l⟩
  have hd := d.isLt
  have sh : ∀ x y : BitVec 8, (x ++ y).toNat = x.toNat * 256 + y.toNat := fun x y => by
    rw [BitVec.toNat_append, Nat.shiftLeft_eq, Nat.mul_comm, ← Nat.two_pow_add_eq_or_of_lt y.isLt x.toNat]
  simp only [takenData, mergeBytes, sh]
  cases lo <;> cases hi <;> simp [Nat.shiftRight_eq_div_pow] <;> omega

/-! ### Accesses -/

theorem busWrite_held {s : State} (h : s.held = true) (page offset : Nat) (w : BusWrite) :
    busWrite page offset w s = passWrite (s.guardedAddress page offset) w s := by simp [busWrite, h]

theorem busRead_held {s : State} (h : s.held = true) (page offset : Nat) (e : ByteEnables) (l : Level) (m : Word) :
    busRead page offset e l m s = passRead (s.guardedAddress page offset) e m s := by simp [busRead, h]

/-- Page 0 is no served page. -/
theorem servedPage_ne_zero {page : Nat} (hp : servedPage page = true) : page ≠ 0 := by
  rintro rfl; simp [servedPage] at hp

theorem busWrite_served {s : State} (h : s.held = false) {page : Nat} (hp : servedPage page = true) (offset : Nat) (w : BusWrite) :
    busWrite page offset w s = servedWrite page offset w (beginAccess s) := by
  simp [busWrite, h, guardedWrite, servedPage_ne_zero hp, hp]

theorem busRead_served {s : State} (h : s.held = false) {page : Nat} (hp : servedPage page = true) (offset : Nat) (e : ByteEnables)
    (l : Level) (m : Word) : busRead page offset e l m s = servedRead page offset l (beginAccess s) := by
  simp [busRead, h, guardedRead, servedPage_ne_zero hp, hp]

theorem busWrite_request {s : State} (h : s.held = false) {word : Nat} (hw : word < 9) (w : BusWrite) :
    busWrite 0 word w s = requestWrite word w (beginAccess s) := by simp [busWrite, h, guardedWrite, hw]

theorem busRead_request {s : State} (h : s.held = false) {word : Nat} (hw : word < 9) (e : ByteEnables) (l : Level) (m : Word) :
    busRead 0 word e l m s = requestRead word e l m (beginAccess s) := by simp [busRead, h, guardedRead, hw]

/-- A write to a word of the guarded area that is neither of the request page nor served is PASSED (R71, R72). -/
theorem guardedWrite_passed {page offset : Nat} (h0 : ¬(page = 0 ∧ offset < 9)) (hp : servedPage page = false) (w : BusWrite) (s : State) :
    guardedWrite page offset w s = passWrite (s.guardedAddress page offset) w s := by simp [guardedWrite, h0, hp]

/-- A read of such a word is PASSED (R71, R72). -/
theorem guardedRead_passed {page offset : Nat} (h0 : ¬(page = 0 ∧ offset < 9)) (hp : servedPage page = false) (e : ByteEnables) (l : Level)
    (m : Word) (s : State) : guardedRead page offset e l m s = passRead (s.guardedAddress page offset) e m s := by
  simp [guardedRead, h0, hp]

/-- A served write that passes checks 1 and 2 is the owning block's answer, settled (R77). -/
theorem busWrite_taken {s : State} {page offset : Nat} {w : BusWrite} (hp : servedPage page = true)
    (hc : wordClass page offset = .stored ∨ wordClass page offset = .command) (h : Taken s (writeLevel s page offset) w) :
    busWrite page offset w s = settle page offset w.level (ownerWrite page offset w (beginAccess s)) := by
  obtain ⟨h1, h2, h3⟩ := h
  have h4 : levelPasses w.level (writeLevel (beginAccess s) page offset) = true := by
    rw [levelPasses_eq, show writeLevel (beginAccess s) page offset = writeLevel s page offset from rfl]; simpa using h3
  rw [busWrite_served h1 hp]
  rcases hc with hc | hc <;> simp [servedWrite, h2, hc, h4]

@[simp] theorem settle_accept (page offset : Nat) (l : Level) (s : State) : settle page offset l (accept s) = s := rfl

@[simp] theorem settle_refuse (page offset : Nat) (l : Level) (reason : Reason) (s : State) :
    settle page offset l (refuse reason s) = submitRefused page offset reason l s := rfl

/-- A request-page write that passes the level check (R86). -/
theorem requestWrite_taken {s : State} {word : Nat} {w : BusWrite} (h : Taken s (requiredLevel s.tap.levelMap .request) w) :
    requestWrite word w s = if word < 8 then maskWrite word w s else modeWordWrite w s := by
  simp [requestWrite, h.2.1, levelPasses_eq, h.2.2]

/-! ### Accesses while a reset is held, and the access it finds in progress -/

/-- While a reset is held an access by its address is forwarded unchanged (R82). -/
theorem busAccess_held {s : State} (h : s.held = true) (a : Access) : busAccess a s = passAccess a s := by
  simp [busAccess, passAccess, h]

/-- All an access forwarded unchanged can do: it drives the pins. -/
theorem passAccess_cases (a : Access) (s : State) :
    (a.writeStrobe = true ∧ passAccess a s = { s with bus := ⟨none, some ⟨true, a.addr, a.enables, a.data⟩⟩ }) ∨
    (a.writeStrobe = false ∧ a.readStrobe = true ∧
      passAccess a s = { s with bus := ⟨some a.memory, some ⟨false, a.addr, a.enables, 0⟩⟩ }) ∨
    (a.writeStrobe = false ∧ a.readStrobe = false ∧ passAccess a s = s) := by
  rcases hw : a.writeStrobe with _ | _ <;> rcases hr : a.readStrobe with _ | _ <;> simp [passAccess, hw, hr, passWrite, passRead]

/-- A reset with no access in progress (R82). -/
@[simp] theorem beginReset_none (kind : ResetKind) (s : State) : beginReset ⟨kind, none⟩ s = assertReset kind s := rfl

/-- A reset with an access in progress: the volatile state is set back whatever the access had done, which leaves a mark on the
non-volatile contents alone, and the pins complete the access (R82). -/
theorem beginReset_some (kind : ResetKind) (p : AccessInProgress) (s : State) :
    beginReset ⟨kind, some p⟩ s = { assertReset kind (accessDone p s) with bus := completedPins p s } := rfl

@[simp] theorem accessDone_not_acted (a : Access) (s : State) : accessDone ⟨a, false⟩ s = s := rfl
@[simp] theorem accessDone_acted (a : Access) (s : State) : accessDone ⟨a, true⟩ s = busAccess a s := rfl

/-- An access on which the device had not acted, and every read, is completed as a PASSED one (R82). -/
theorem completedPins_passed {p : AccessInProgress} (h : p.acted = false ∨ p.access.writeStrobe = false) (s : State) :
    completedPins p s = (passAccess p.access (beginAccess s)).bus := by
  rcases h with h | h <;> simp [completedPins, h]

end Sys2Proof.Machine
end

