-- ==== Sys2Proof/Laws/Detectors.lean ====
section
/-! SUPPORT. The detector unit's operations once: what they leave alone, that each touches its own detector alone, and what a sweep over the
detectors does to one of them. -/

namespace Sys2Proof.Machine

open Sys2Proof

/-- From `s` to `t` nothing changed but detector records, call bits and the event queue. -/
def DetectorMove (s t : State) : Prop :=
  t = { s with queue := t.queue, detectors := { s.detectors with detectors := t.detectors.detectors, calls := t.detectors.calls } }

theorem DetectorMove.refl (s : State) : DetectorMove s s := rfl

theorem DetectorMove.trans {s t u : State} (h : DetectorMove s t) (k : DetectorMove t u) : DetectorMove s u := by
  unfold DetectorMove at *
  rw [h] at k
  exact k

/-- The move leaves every other detector as it was. -/
def OnlyDetector (d : DetectorNo) (s t : State) : Prop := ∀ e, e ≠ d → t.detector e = s.detector e

/-- A move of one detector: the two properties together. -/
def DetectsOnly (d : DetectorNo) (s t : State) : Prop := DetectorMove s t ∧ OnlyDetector d s t

theorem DetectsOnly.refl (d : DetectorNo) (s : State) : DetectsOnly d s s := ⟨.refl s, fun _ _ => rfl⟩

theorem DetectsOnly.trans {d : DetectorNo} {s t u : State} (h : DetectsOnly d s t) (k : DetectsOnly d t u) : DetectsOnly d s u :=
  ⟨h.1.trans k.1, fun e he => (k.2 e he).trans (h.2 e he)⟩

theorem setDetector_detects (d : DetectorNo) (x : Detector) (s : State) : DetectsOnly d s (s.setDetector d x) :=
  ⟨rfl, fun _ he => s.setDetector_detector_ne x he⟩

theorem submitDetector_detects (k : EventKind) (d : DetectorNo) (w : Word) (s : State) : DetectsOnly d s (submitDetector k d w s) :=
  ⟨rfl, fun _ _ => rfl⟩

theorem setCalls_detects (d : DetectorNo) (m : Mask) (s : State) : DetectsOnly d s (setCalls m s) := ⟨rfl, fun _ _ => rfl⟩

theorem occupy_detects (d : DetectorNo) (s : State) : DetectsOnly d s (occupy d s) := by
  unfold occupy
  dsimp only
  split
  · exact ((setDetector_detects d _ s).trans (submitDetector_detects _ d _ _)).trans (setCalls_detects d _ _)
  · exact ((setDetector_detects d _ s).trans (submitDetector_detects _ d _ _)).trans (setCalls_detects d _ _)
  · split
    · exact (setDetector_detects d _ s).trans (submitDetector_detects _ d _ _)
    · exact setDetector_detects d _ s
  · exact .refl d s

theorem activate_detects (d : DetectorNo) (s : State) : DetectsOnly d s (activate d s) := by
  unfold activate
  dsimp only
  split
  · exact (setDetector_detects d _ s).trans (occupy_detects d _)
  · exact ((setDetector_detects d _ s).trans (submitDetector_detects _ d _ _)).trans (occupy_detects d _)
  · exact setDetector_detects d _ s

theorem deactivate_detects (d : DetectorNo) (s : State) : DetectsOnly d s (deactivate d s) := by
  unfold deactivate
  dsimp only
  split
  · split
    · exact (setDetector_detects d _ s).trans (submitDetector_detects _ d _ _)
    · exact setDetector_detects d _ s
  · exact (setDetector_detects d _ s).trans (submitDetector_detects _ d _ _)
  · exact .refl d s

theorem sampleDetector_detects (inputs : BitVec 48) (s : State) (d : DetectorNo) : DetectsOnly d s (sampleDetector inputs s d) := by
  unfold sampleDetector
  dsimp only
  split
  · exact setDetector_detects d _ s
  · split
    · split
      · exact (setDetector_detects d _ s).trans (activate_detects d _)
      · exact (setDetector_detects d _ s).trans (deactivate_detects d _)
    · exact setDetector_detects d _ s

theorem enterStuck_detects (d : DetectorNo) (st : DetectorState) (w : Word) (s : State) : DetectsOnly d s (enterStuck d st w s) :=
  ((setDetector_detects d _ s).trans (submitDetector_detects _ d w _)).trans (setCalls_detects d _ _)

theorem stepDetector_detects (s : State) (d : DetectorNo) : DetectsOnly d s (stepDetector s d) := by
  unfold stepDetector
  dsimp only
  split
  · exact (setDetector_detects d _ s).trans (enterStuck_detects d _ _ _)
  · split
    · exact (setDetector_detects d _ s).trans (enterStuck_detects d _ _ _)
    · exact setDetector_detects d _ s

/-- What a sweep over distinct detectors does to one of them: nothing before its turn and nothing after it. -/
theorem foldl_detectors {f : State → DetectorNo → State} (hf : ∀ s d, DetectsOnly d s (f s d)) (d : DetectorNo) :
    ∀ (l : List DetectorNo) (s : State), l.Nodup →
      DetectorMove s (l.foldl f s) ∧
      (d ∉ l → (l.foldl f s).detector d = s.detector d) ∧
      (d ∈ l → ∃ u, DetectorMove s u ∧ u.detector d = s.detector d ∧ (l.foldl f s).detector d = (f u d).detector d)
  | [], s, _ => ⟨.refl s, fun _ => rfl, fun h => absurd h (by simp)⟩
  | e :: l, s, hn => by
    obtain ⟨he, hl⟩ := List.nodup_cons.1 hn
    obtain ⟨h1, h2, h3⟩ := foldl_detectors hf d l (f s e) hl
    refine ⟨(hf s e).1.trans h1, fun hd => ?_, fun hd => ?_⟩
    · simp only [List.mem_cons, not_or] at hd
      exact (h2 hd.2).trans ((hf s e).2 d hd.1)
    · by_cases hde : d = e
      · subst hde
        exact ⟨s, .refl s, rfl, h2 he⟩
      · obtain ⟨u, hu1, hu2, hu3⟩ := h3 ((List.mem_cons.1 hd).resolve_left hde)
        exact ⟨u, (hf s e).1.trans hu1, hu2.trans ((hf s e).2 d hde), hu3⟩

/-- A sample leaves everything but detectors, calls and records, and treats each detector once, from its own values before the sample. -/
theorem detectorSample_at {s : State} (h : s.held = false) (inputs : BitVec 48) (d : DetectorNo) :
    DetectorMove s (detectorSample inputs s) ∧
    ∃ u, DetectorMove s u ∧ u.detector d = s.detector d ∧
      (detectorSample inputs s).detector d = (sampleDetector inputs u d).detector d := by
  have hb : DetectorMove s (beginSample s) := rfl
  simp only [detectorSample, h, Bool.false_eq_true, if_false]
  obtain ⟨h1, -, h3⟩ :=
    foldl_detectors (sampleDetector_detects inputs) d (List.finRange 48) (beginSample s) (List.nodup_finRange 48)
  obtain ⟨u, h4, h5, h6⟩ := h3 (List.mem_finRange d)
  exact ⟨hb.trans h1, u, hb.trans h4, h5, h6⟩

/-! ### Records of a sample -/

/-- The kinds and details that a detector submits, taken by the queue in their order. -/
def submitAll (stamp : Word) (d : DetectorNo) (xs : List (EventKind × Word)) (q : Queue) : Queue :=
  xs.foldl (fun q x => q.submit x.1 stamp (BitVec.ofNat 8 d.val) x.2) q

/-- Every kind an activation submits after a recovery is the detector unit's own. -/
theorem occupy_records (d : DetectorNo) (s : State) :
    (occupy d s).clock = s.clock ∧
    ((occupy d s).queue = s.queue ∨ ∃ k w, EventKind.block k = .detectorUnit ∧
      (occupy d s).queue = submitAll (lowWord s.clock) d [(k, w)] s.queue) := by
  unfold occupy
  dsimp only
  split
  · exact ⟨rfl, .inr ⟨.detOccupied, _, rfl, rfl⟩⟩
  · exact ⟨rfl, .inr ⟨.detPulse, _, rfl, rfl⟩⟩
  · split
    · exact ⟨rfl, .inr ⟨.detCount, _, rfl, rfl⟩⟩
    · exact ⟨rfl, .inl rfl⟩
  · exact ⟨rfl, .inl rfl⟩

/-- All that one detector's part of a sample can submit: nothing, one record, or DET_RECOVER and then one (R128). -/
theorem sampleDetector_records (inputs : BitVec 48) (s : State) (d : DetectorNo) :
    (sampleDetector inputs s d).queue = s.queue ∨
    (∃ k w, EventKind.block k = .detectorUnit ∧ (sampleDetector inputs s d).queue = submitAll (lowWord s.clock) d [(k, w)] s.queue) ∨
    ∃ k w, EventKind.block k = .detectorUnit ∧
      (sampleDetector inputs s d).queue = submitAll (lowWord s.clock) d [(.detRecover, 2), (k, w)] s.queue := by
  unfold sampleDetector
  dsimp only
  split
  · exact .inl rfl
  split
  · split
    · unfold activate
      dsimp only
      split
      · rcases (occupy_records d _).2 with e | ⟨k, w, hk, e⟩
        · exact .inl e
        · exact .inr (.inl ⟨k, w, hk, e⟩)
      · rcases (occupy_records d _).2 with e | ⟨k, w, hk, e⟩
        · exact .inr (.inl ⟨.detRecover, 2, rfl, e⟩)
        · exact .inr (.inr ⟨k, w, hk, e⟩)
      · exact .inl rfl
    · unfold deactivate
      dsimp only
      split
      · split
        · exact .inr (.inl ⟨.detFree, _, rfl, rfl⟩)
        · exact .inl rfl
      · exact .inr (.inl ⟨.detRecover, _, rfl, rfl⟩)
      · exact .inl rfl
  · exact .inl rfl

end Sys2Proof.Machine
end

