-- ==== Sys2Proof/Laws/Moves.lean ====
section
/-! SUPPORT. The group sequencer's operations, once each: what they leave alone (`GroupFrame`), that each moves its own group alone, and
what a sweep over the configured groups does to one of them. -/

namespace Sys2Proof.Machine

open Sys2Proof

/-! ### What a group's moves leave alone -/

theorem GroupFrame.refl (s : State) : GroupFrame s s := by constructor <;> rfl

theorem GroupFrame.trans {s t u : State} (h : GroupFrame s t) (k : GroupFrame t u) : GroupFrame s u where
  powerOnHeld := k.powerOnHeld.trans h.powerOnHeld
  externalHeld := k.externalHeld.trans h.externalHeld
  clock := k.clock.trans h.clock
  arbiter := k.arbiter.trans h.arbiter
  page := k.page.trans h.page
  tap := k.tap.trans h.tap
  link := k.link.trans h.link
  store := k.store.trans h.store
  latches := k.latches.trans h.latches
  bus := k.bus.trans h.bus
  pending := k.pending.trans h.pending
  mode := k.mode.trans (by rw [h.mode])
  lamps := k.lamps.trans (by rw [h.lamps])
  detectors := k.detectors.trans (by rw [h.detectors])
  parts := k.parts.trans (by rw [h.parts])

namespace GroupFrame

variable {s t : State} (h : GroupFrame s t)
include h

theorem modeMode : t.mode.mode = s.mode.mode := by rw [h.mode]
theorem modeCause : t.mode.cause = s.mode.cause := by rw [h.mode]
theorem normalPending : t.mode.normalPending = s.mode.normalPending := by rw [h.mode]
theorem startFlashTimer : t.mode.startFlashTimer = s.mode.startFlashTimer := by rw [h.mode]
theorem h0 : t.mode.h0 = s.mode.h0 := by rw [h.mode]
theorem h1 : t.mode.h1 = s.mode.h1 := by rw [h.mode]
theorem switch : t.mode.switch = s.mode.switch := by rw [h.mode]
theorem detectorRecords : t.detectors.detectors = s.detectors.detectors := by rw [h.detectors]
theorem select : t.detectors.select = s.detectors.select := by rw [h.detectors]
theorem sequencer : t.parts.sequencer = s.parts.sequencer := by rw [h.parts]
theorem modeTimerPart : t.parts.modeTimer = s.parts.modeTimer := by rw [h.parts]
theorem held : t.held = s.held := by simp only [State.held, h.powerOnHeld, h.externalHeld]
theorem active : t.active = s.active := by simp only [State.active, h.store]
theorem groupCount : t.groupCount = s.groupCount := by simp only [State.groupCount, State.active, h.store]
theorem configured (g : GroupNo) : t.configured g = s.configured g := by simp only [State.configured, h.groupCount]
theorem configuredMask : t.configuredMask = s.configuredMask := by
  have : t.configured = s.configured := funext h.configured
  simp only [State.configuredMask, this]
theorem record (g : GroupNo) : t.record g = s.record g := by simp only [State.record, h.active]
theorem prepareTime (g : GroupNo) : t.prepareTime g = s.prepareTime g := by simp only [State.prepareTime, h.record]
theorem minimumGo (g : GroupNo) : t.minimumGo g = s.minimumGo g := by simp only [State.minimumGo, h.record]
theorem clearingTime (g : GroupNo) : t.clearingTime g = s.clearingTime g := by simp only [State.clearingTime, h.record]
theorem inConflict (j i : GroupNo) : t.inConflict j i = s.inConflict j i := by
  simp only [State.inConflict, h.configured, h.active]
theorem goMask : t.goMask = s.goMask := by simp only [State.goMask, h.page]
theorem requested (g : GroupNo) : t.requested g = s.requested g := by
  simp only [State.requested, h.configured, h.goMask, h.modeMode]
theorem holdsAct : t.holdsAct = s.holdsAct := by simp only [State.holdsAct, h.modeMode]
theorem heldByLine (g : GroupNo) : t.heldByLine g = s.heldByLine g := by
  simp only [State.heldByLine, h.h0, h.h1, h.active]
theorem standing : t.standing = s.standing := by
  simp only [State.standing, h.configuredMask, h.detectorRecords]
theorem isPending (g : GroupNo) (hg : t.group g = s.group g) : t.isPending g = s.isPending g := by
  simp only [State.isPending, hg, h.requested]

end GroupFrame

/-- The move leaves every other group's record as it was. -/
def OnlyGroup (g : GroupNo) (s t : State) : Prop := ∀ i, i ≠ g → t.group i = s.group i

theorem OnlyGroup.refl (g : GroupNo) (s : State) : OnlyGroup g s s := fun _ _ => rfl

theorem OnlyGroup.trans {g : GroupNo} {s t u : State} (h : OnlyGroup g s t) (k : OnlyGroup g t u) : OnlyGroup g s u :=
  fun i hi => (k i hi).trans (h i hi)

/-- A move of one group: the two properties together. -/
def MovesOnly (g : GroupNo) (s t : State) : Prop := GroupFrame s t ∧ OnlyGroup g s t

theorem MovesOnly.refl (g : GroupNo) (s : State) : MovesOnly g s s := ⟨.refl s, .refl g s⟩

theorem MovesOnly.trans {g : GroupNo} {s t u : State} (h : MovesOnly g s t) (k : MovesOnly g t u) : MovesOnly g s u :=
  ⟨h.1.trans k.1, h.2.trans k.2⟩

/-! ### The operations -/

theorem submit_moves (g : GroupNo) (k : EventKind) (x : Byte) (d : Word) (s : State) : MovesOnly g s (submit k x d s) :=
  ⟨by constructor <;> rfl, fun _ _ => rfl⟩

theorem setGroup_moves (g : GroupNo) (x : Group) (s : State) : MovesOnly g s (s.setGroup g x) :=
  ⟨by constructor <;> rfl, fun _ hi => s.setGroup_group_ne x hi⟩

theorem noteEntry_parts (p : EventParts) (g : GroupNo) (b : Bool) : p.noteEntry g b = { p with
    heldTimers := (p.noteEntry g b).heldTimers, heldElapsed := (p.noteEntry g b).heldElapsed
    heldAges := (p.noteEntry g b).heldAges, heldModeTimer := (p.noteEntry g b).heldModeTimer } := by
  unfold EventParts.noteEntry; split <;> rfl

theorem enterGroup_moves (g : GroupNo) (st : GroupState) (e : Option Nat) (b : Bool) (s : State) :
    MovesOnly g s (enterGroup g st e b s) := by
  refine ⟨?_, fun i hi => s.setGroup_group_ne _ hi⟩
  constructor <;> first | rfl | exact noteEntry_parts s.parts g e.isSome

@[simp] theorem enterGroup_group (g : GroupNo) (st : GroupState) (e : Option Nat) (b : Bool) (s : State) :
    (enterGroup g st e b s).group g = ⟨st, 0, 0, 0, false, b, e.getD (s.group g).elapsed, 0⟩ :=
  s.setGroup_group_self g _

@[simp] theorem enterGroup_calls (g : GroupNo) (st : GroupState) (e : Option Nat) (b : Bool) (s : State) :
    (enterGroup g st e b s).detectors.calls = s.detectors.calls := rfl

@[simp] theorem enterGroup_queue (g : GroupNo) (st : GroupState) (e : Option Nat) (b : Bool) (s : State) :
    (enterGroup g st e b s).queue =
      s.queue.submit .groupState (lowWord s.clock) (BitVec.ofNat 8 g.val) (groupDetail st (s.group g).state) := rfl

theorem startStoppedTimer_moves (g : GroupNo) (s : State) : MovesOnly g s (startStoppedTimer s) := by
  unfold startStoppedTimer; split
  · exact ⟨by constructor <;> rfl, fun _ _ => rfl⟩
  · exact .refl g s

@[simp] theorem startStoppedTimer_group (s : State) (g : GroupNo) : (startStoppedTimer s).group g = s.group g := by
  unfold startStoppedTimer; split <;> rfl

@[simp] theorem startStoppedTimer_queue (s : State) : (startStoppedTimer s).queue = s.queue := by
  unfold startStoppedTimer; split <;> rfl

theorem enterStop_moves (g : GroupNo) (e : Option Nat) (s : State) : MovesOnly g s (enterStop g e s) :=
  (enterGroup_moves g _ _ _ s).trans (startStoppedTimer_moves g _)

@[simp] theorem enterStop_group (g : GroupNo) (e : Option Nat) (s : State) :
    (enterStop g e s).group g = ⟨.stop, 0, 0, 0, false, false, e.getD (s.group g).elapsed, 0⟩ := by simp [enterStop]

theorem enterClearing_moves (g : GroupNo) (s : State) : MovesOnly g s (enterClearing g s) := enterGroup_moves g _ _ _ s

@[simp] theorem enterClearing_group (g : GroupNo) (s : State) :
    (enterClearing g s).group g = ⟨.clearing, 0, 0, 0, false, false, 0, 0⟩ := by simp [enterClearing]

theorem holdRule_moves (g : GroupNo) (s : State) : MovesOnly g s (holdRule g s) := by
  unfold holdRule; split
  · split
    · exact enterClearing_moves g s
    · exact enterStop_moves g none s
    · exact .refl g s
  · exact .refl g s

theorem clearCalls_moves (g : GroupNo) (m : Mask) (s : State) : MovesOnly g s (clearCalls m s) :=
  ⟨by constructor <;> rfl, fun _ _ => rfl⟩

theorem setCalls_moves (g : GroupNo) (m : Mask) (s : State) : MovesOnly g s (setCalls m s) :=
  ⟨by constructor <;> rfl, fun _ _ => rfl⟩

theorem enterGo_moves (g : GroupNo) (s : State) : MovesOnly g s (enterGo g s) :=
  ((enterGroup_moves g _ _ _ s).trans (clearCalls_moves g _ _)).trans (holdRule_moves g _)

theorem enterPrepare_moves (g : GroupNo) (s : State) : MovesOnly g s (enterPrepare g s) :=
  (enterGroup_moves g _ _ _ s).trans (holdRule_moves g _)

theorem grant_moves (g : GroupNo) (s : State) : MovesOnly g s (grant g s) := by
  unfold grant; split
  · exact enterPrepare_moves g s
  · exact enterGo_moves g s

theorem orderGroup_moves (st : GroupState) (g : GroupNo) (s : State) : MovesOnly g s (orderGroup st g s) := by
  unfold orderGroup; split
  · exact .refl g s
  · exact enterGroup_moves g _ _ _ s

theorem resetAge_moves (g : GroupNo) (s : State) : MovesOnly g s (resetAge g s) := by
  unfold resetAge; dsimp only; split
  · exact (setGroup_moves g _ s).trans ⟨by constructor <;> rfl, fun _ _ => rfl⟩
  · exact setGroup_moves g _ s

theorem requestSet_moves (g : GroupNo) (s : State) : MovesOnly g s (requestSet g s) := by
  unfold requestSet; split
  · exact resetAge_moves g s
  · exact setGroup_moves g _ s
  · exact setGroup_moves g _ s
  · exact .refl g s

theorem requestCleared_moves (g : GroupNo) (s : State) : MovesOnly g s (requestCleared g s) := by
  unfold requestCleared; split
  · exact resetAge_moves g s
  · exact (setGroup_moves g _ s).trans (submit_moves g _ _ _ _)
  · split
    · exact enterClearing_moves g s
    · exact (setGroup_moves g _ s).trans (submit_moves g _ _ _ _)
  · exact .refl g s

theorem allStopOrder_moves (g : GroupNo) (s : State) : MovesOnly g s (allStopOrder g s) := by
  unfold allStopOrder; split
  · exact enterClearing_moves g s
  · exact enterStop_moves g _ s

theorem expireTimer_moves (g : GroupNo) (s : State) : MovesOnly g s (expireTimer g s) := by
  unfold expireTimer; split
  · split
    · exact enterGo_moves g s
    · exact .refl g s
  · split
    · exact enterClearing_moves g s
    · exact .refl g s
  · split
    · exact enterStop_moves g none s
    · exact .refl g s
  · exact .refl g s

theorem stepGroup_moves (p : EventParts) (g : GroupNo) (s : State) : MovesOnly g s (stepGroup p g s) := by
  unfold stepGroup; dsimp only; split
  · exact setGroup_moves g _ s
  · exact (setGroup_moves g _ s).trans ((setGroup_moves g _ _).trans (expireTimer_moves g _))

/-! ### Sweeps -/

/-- A fold over groups in which each turn moves its own group alone, seen at one group: before its turn nothing happened to it, and
after its turn nothing more does. -/
theorem foldl_at (f : State → GroupNo → State) (hf : ∀ s g, MovesOnly g s (f s g)) (g : GroupNo) :
    ∀ (l : List GroupNo) (s : State), l.Nodup →
      GroupFrame s (l.foldl f s) ∧
      (g ∉ l → (l.foldl f s).group g = s.group g) ∧
      (g ∈ l → ∃ s', GroupFrame s s' ∧ s'.group g = s.group g ∧ (l.foldl f s).group g = (f s' g).group g ∧
        GroupFrame (f s' g) (l.foldl f s)) := by
  intro l
  induction l with
  | nil => intro s _; exact ⟨.refl s, fun _ => rfl, fun h => by cases h⟩
  | cons a l ih =>
    intro s hn
    obtain ⟨ha, hl⟩ := List.nodup_cons.mp hn
    obtain ⟨h1, h2, h3⟩ := ih (f s a) hl
    refine ⟨(hf s a).1.trans h1, fun h => ?_, fun h => ?_⟩
    · have hne : g ≠ a := fun e => h (e ▸ List.mem_cons_self)
      exact (h2 fun hm => h (List.mem_cons_of_mem _ hm)).trans ((hf s a).2 g hne)
    · by_cases e : g = a
      · subst e; exact ⟨s, .refl s, rfl, h2 ha, h1⟩
      · obtain ⟨s', k1, k2, k3, k4⟩ := h3 (by simpa [e] using h)
        exact ⟨s', (hf s a).1.trans k1, k2.trans ((hf s a).2 g e), k3, k4⟩

/-- The turn of a sweep: the group's operation where it is configured. -/
theorem sweepTurn_moves {f : GroupNo → State → State} (hf : ∀ g s, MovesOnly g s (f g s)) (s : State) (g : GroupNo) :
    MovesOnly g s (if s.configured g then f g s else s) := by
  split
  · exact hf g s
  · exact .refl g s

/-- A sweep over the configured groups is a move of groups. -/
theorem forGroups_move {f : GroupNo → State → State} (hf : ∀ g s, MovesOnly g s (f g s)) (s : State) :
    GroupFrame s (forGroups f s) :=
  (foldl_at _ (fun s g => sweepTurn_moves hf s g) 0 _ s (List.nodup_finRange 32)).1

/-- A sweep leaves an unconfigured group's record as it was. -/
theorem forGroups_unconfigured {f : GroupNo → State → State} (hf : ∀ g s, MovesOnly g s (f g s)) (s : State) (g : GroupNo)
    (hg : s.configured g = false) : (forGroups f s).group g = s.group g := by
  obtain ⟨s', h1, h2, h3, -⟩ := (foldl_at _ (fun s g => sweepTurn_moves hf s g) g _ s (List.nodup_finRange 32)).2.2
    (List.mem_finRange g)
  unfold forGroups
  rw [h3, h1.configured, hg]; exact h2

/-- A sweep, seen at one configured group: its record is what its own turn makes of it, from a state that differs from the start by moves
of other groups. -/
theorem forGroups_at {f : GroupNo → State → State} (hf : ∀ g s, MovesOnly g s (f g s)) (s : State) (g : GroupNo)
    (hg : s.configured g = true) :
    ∃ s', GroupFrame s s' ∧ s'.group g = s.group g ∧ (forGroups f s).group g = (f g s').group g ∧
      GroupFrame (f g s') (forGroups f s) := by
  obtain ⟨s', h1, h2, h3, h4⟩ := (foldl_at _ (fun s g => sweepTurn_moves hf s g) g _ s (List.nodup_finRange 32)).2.2
    (List.mem_finRange g)
  have hc : s'.configured g = true := (h1.configured g).trans hg
  rw [hc, if_pos rfl] at h3 h4
  exact ⟨s', h1, h2, h3, h4⟩

/-- Two sweeps over the same start that make the same of a group's record, whatever moves came between, agree on it. -/
theorem holdSweep_move (s : State) : GroupFrame s (holdSweep s) := forGroups_move holdRule_moves s

theorem orderAll_move (st : GroupState) (s : State) : GroupFrame s (orderAll st s) := forGroups_move (orderGroup_moves st) s

theorem endRequest_moves (g : GroupNo) (s : State) : MovesOnly g s (endRequest g s) := by
  unfold endRequest; split
  · exact requestCleared_moves g s
  · exact .refl g s

theorem toFlashTurn_moves (g : GroupNo) (s : State) : MovesOnly g s (toFlashTurn g s) :=
  (endRequest_moves g s).trans (holdRule_moves g _)

/-- Every configured group ordered into FLASHING or UNLIT is in it. -/
theorem orderAll_state (st : GroupState) (s : State) (g : GroupNo) (hg : s.configured g = true) :
    ((orderAll st s).group g).state = st := by
  obtain ⟨s', -, -, h3, -⟩ := forGroups_at (orderGroup_moves st) s g hg
  unfold orderAll
  rw [h3]; unfold orderGroup; split
  · assumption
  · simp

end Sys2Proof.Machine
end

