-- ==== Sys2Proof/Laws/Masks.lean ====
section
/-! SUPPORT. Bits of masks, of words and of the tables' entries. -/

namespace Sys2Proof.Machine

open Sys2Proof

theorem groupBit_getLsbD (g i : GroupNo) : (groupBit g).getLsbD i.val = decide (g = i) := by
  revert g i; decide +kernel

/-- The bit of a group in a mask built from a property is the property. -/
theorem maskOf_getLsbD (p : GroupNo → Bool) (i : GroupNo) : (maskOf p).getLsbD i.val = p i := by
  have h : ∀ (l : List GroupNo) (m : Mask),
      (l.foldl (fun m g => if p g then m ||| groupBit g else m) m).getLsbD i.val =
        (m.getLsbD i.val || l.any fun g => p g && decide (g = i)) := by
    intro l
    induction l with
    | nil => intro m; simp
    | cons a l ih =>
      intro m
      rw [List.foldl_cons, ih, List.any_cons]
      by_cases ha : p a = true
      · rw [if_pos ha, BitVec.getLsbD_or, groupBit_getLsbD, ha, Bool.true_and, Bool.or_assoc]
      · simp [ha]
  rw [maskOf, h]
  by_cases hp : p i = true
  · have : (List.finRange 32).any (fun g => p g && decide (g = i)) = true :=
      List.any_eq_true.mpr ⟨i, List.mem_finRange i, by simp [hp]⟩
    simp [this, hp]
  · have : (List.finRange 32).any (fun g => p g && decide (g = i)) = false := by
      rw [List.any_eq_false]; intro g _ h
      obtain ⟨h1, h2⟩ := by simpa using h
      exact hp (h2 ▸ h1)
    simp [this, hp]

theorem configuredMask_getLsbD (s : State) (g : GroupNo) : s.configuredMask.getLsbD g.val = s.configured g :=
  maskOf_getLsbD _ g

/-- A mask is the mask of its bits. -/
theorem mask_ext {a b : Mask} (h : ∀ g : GroupNo, a.getLsbD g.val = b.getLsbD g.val) : a = b := by
  apply BitVec.eq_of_getLsbD_eq
  intro i hi
  exact h ⟨i, hi⟩

/-- The OR of a list of masks, bit by bit. -/
theorem foldl_or_getLsbD {α : Type} (f : α → Mask) (i : Nat) : ∀ (l : List α) (m : Mask),
    (l.foldl (fun m x => m ||| f x) m).getLsbD i = (m.getLsbD i || l.any fun x => (f x).getLsbD i) := by
  intro l
  induction l with
  | nil => intro m; simp
  | cons a l ih => intro m; rw [List.foldl_cons, ih, List.any_cons]; simp [Bool.or_assoc]

/-- The stretched sense of a group's line is on when any sample of the window is (R101). -/
theorem stretched_getLsbD (l : LampMonitor) (line : Line) (i : Nat) :
    (l.stretched line).getLsbD i = l.samples.any fun x => (senseLine x line).getLsbD i := by
  simp [LampMonitor.stretched, foldl_or_getLsbD]

/-- Commanded-GO of a group is on when any interval of the window is marked (R102). -/
theorem commandedGo_getLsbD (l : LampMonitor) (i : Nat) : l.commandedGo.getLsbD i = l.goIntervals.any fun x => x.getLsbD i := by
  simp only [LampMonitor.commandedGo]
  rw [foldl_or_getLsbD (fun x => x)]; simp

/-- A standing call stands on a group that some faulted detector maps and that is configured (R123). -/
theorem standing_getLsbD (s : State) (g : GroupNo) :
    s.standing.getLsbD g.val = ((List.finRange 48).any (fun d => (s.detectors.detectors.get d).faulted &&
      (s.detectors.detectors.get d).mapped.getLsbD g.val) && s.configured g) := by
  have h : ∀ (l : List DetectorNo) (m : Mask), (l.foldl (fun m k =>
      let d := s.detectors.detectors.get k
      if d.faulted then m ||| d.mapped else m) m).getLsbD g.val = (m.getLsbD g.val || l.any fun d =>
        (s.detectors.detectors.get d).faulted && (s.detectors.detectors.get d).mapped.getLsbD g.val) := by
    intro l
    induction l with
    | nil => intro m; simp
    | cons a l ih =>
      intro m
      rw [List.foldl_cons, ih, List.any_cons]
      dsimp only
      by_cases ha : (s.detectors.detectors.get a).faulted = true
      · simp [ha, Bool.or_assoc]
      · simp [ha]
  rw [State.standing, BitVec.getLsbD_and, configuredMask_getLsbD, h]
  simp

/-- A call bit after a call-clear: clear where cleared, unless a standing call sets it again (R123, R124). -/
theorem clearCalls_getLsbD (m : Mask) (s : State) (g : GroupNo) :
    (clearCalls m s).detectors.calls.getLsbD g.val =
      ((s.detectors.calls.getLsbD g.val && !m.getLsbD g.val) || (s.standing.getLsbD g.val && m.getLsbD g.val)) := by
  simp [clearCalls]

/-- A call bit after calls are set, for configured groups alone (R122, R123). -/
theorem setCalls_getLsbD (m : Mask) (s : State) (g : GroupNo) :
    (setCalls m s).detectors.calls.getLsbD g.val =
      (s.detectors.calls.getLsbD g.val || (m.getLsbD g.val && s.configured g)) := by
  show (s.detectors.calls ||| (m &&& s.configuredMask)).getLsbD g.val = _
  rw [BitVec.getLsbD_or, BitVec.getLsbD_and, configuredMask_getLsbD]

end Sys2Proof.Machine
end

