-- ==== Sys2Proof/Laws/Modes.lean ====
section
/-! SUPPORT. Changes of mode, once each: the mode they leave, what becomes of every group, and what they leave alone. -/

namespace Sys2Proof.Machine

open Sys2Proof

/-- A change of mode is the new mode and then moves of groups. -/
theorem changeMode_move (m : Mode) (c : Cause) {orders : State → State} (ho : ∀ s, GroupFrame s (orders s)) (s : State) :
    GroupFrame (setMode m c s) (changeMode m c orders s) :=
  (submit_moves 0 _ _ _ _).1.trans (ho _)

/-- After a change of mode a group stands as the orders of the change leave it. -/
theorem changeMode_group (m : Mode) (c : Cause) (orders : State → State) (s : State) (g : GroupNo) :
    (changeMode m c orders s).group g =
      (orders (submit .mode Config.absent (modeDetail m s.mode.mode c) (setMode m c s))).group g := rfl

@[simp] theorem setMode_group (m : Mode) (c : Cause) (s : State) (g : GroupNo) : (setMode m c s).group g = s.group g := rfl
@[simp] theorem setMode_modeMode (m : Mode) (c : Cause) (s : State) : (setMode m c s).mode.mode = m := rfl
@[simp] theorem setMode_modeCause (m : Mode) (c : Cause) (s : State) : (setMode m c s).mode.cause = c := rfl
@[simp] theorem setMode_configured (m : Mode) (c : Cause) (s : State) (g : GroupNo) :
    (setMode m c s).configured g = s.configured g := rfl

theorem changeMode_modeMode (m : Mode) (c : Cause) {orders : State → State} (ho : ∀ s, GroupFrame s (orders s)) (s : State) :
    (changeMode m c orders s).mode.mode = m := (changeMode_move m c ho s).modeMode

theorem changeMode_modeCause (m : Mode) (c : Cause) {orders : State → State} (ho : ∀ s, GroupFrame s (orders s)) (s : State) :
    (changeMode m c orders s).mode.cause = c := (changeMode_move m c ho s).modeCause

/-- Entry to FLASH: a change of mode and orders into FLASHING (R57, R58). -/
theorem flashEntry_move (c : Cause) (s : State) : GroupFrame (setMode .flash c s) (flashEntry c s) :=
  changeMode_move .flash c (orderAll_move .flashing) s

theorem flashEntry_state (c : Cause) (s : State) (g : GroupNo) (hg : s.configured g = true) :
    ((flashEntry c s).group g).state = .flashing := by
  rw [flashEntry, changeMode_group]; exact orderAll_state _ _ g hg

theorem setNormalPending_move (b : Bool) {s t : State} (h : GroupFrame s t) :
    GroupFrame (setNormalPending b s) (setNormalPending b t) := by
  obtain ⟨h1, h2, h3, h4, h5, h6, h7, h8, h9, h10, h11, h12, h13, h14, h15⟩ := h
  refine ⟨h1, h2, h3, h4, h5, h6, h7, h8, h9, h10, h11, ?_, h13, h14, h15⟩
  unfold setNormalPending; dsimp only; rw [h12]

@[simp] theorem setNormalPending_group (b : Bool) (s : State) (g : GroupNo) : (setNormalPending b s).group g = s.group g := rfl

/-- Entry to DARK: a change of mode and orders into UNLIT, normal-pending cleared (R60). -/
theorem darkEntry_move (s : State) : GroupFrame (setNormalPending false (setMode .dark .software s)) (darkEntry s) :=
  setNormalPending_move false (changeMode_move .dark .software (orderAll_move .unlit) s)

theorem darkEntry_state (s : State) (g : GroupNo) (hg : s.configured g = true) : ((darkEntry s).group g).state = .unlit := by
  rw [darkEntry, setNormalPending_group, changeMode_group]; exact orderAll_state _ _ g hg

/-- The orders of TO_FLASH entry move groups alone (R56, R57, R62). -/
theorem toFlashOrders_move (s : State) : GroupFrame s (forGroups toFlashTurn (startStoppedTimer s)) :=
  (startStoppedTimer_moves 0 s).1.trans (forGroups_move toFlashTurn_moves _)

theorem toFlashEntry_move (c : Cause) (s : State) : GroupFrame (setMode .toFlash c s) (toFlashEntry c s) :=
  changeMode_move .toFlash c toFlashOrders_move s

theorem normalEntry_move (s : State) : GroupFrame (setMode .normal s.mode.cause s) (normalEntry s) :=
  changeMode_move .normal _ holdSweep_move s

theorem allStopOrders_move (s : State) : GroupFrame s (forGroups allStopOrder s) := forGroups_move allStopOrder_moves s

theorem allStopChange_move (s : State) :
    GroupFrame (setMode .allStop .software s) (changeMode .allStop .software (forGroups allStopOrder) s) :=
  changeMode_move .allStop .software allStopOrders_move s

@[simp] theorem startLiveness_group (s : State) (g : GroupNo) : (startLiveness s).group g = s.group g := rfl

/-- At ALL_STOP entry an AMBER_FLASH group goes into CLEARING and every other into STOP, with E 0 (R51). -/
theorem allStopEntry_group (s : State) (g : GroupNo) (hg : s.configured g = true) :
    (allStopEntry s).group g =
      if (s.record g).aspect = 1 then ⟨.clearing, 0, 0, 0, false, false, 0, 0⟩ else ⟨.stop, 0, 0, 0, false, false, 0, 0⟩ := by
  rw [allStopEntry, startLiveness_group, changeMode_group]
  obtain ⟨s', h1, -, h3, -⟩ := forGroups_at allStopOrder_moves
    (submit .mode Config.absent (modeDetail .allStop s.mode.mode .software) (setMode .allStop .software s)) g hg
  have hr : s'.record g = s.record g := h1.record g
  rw [h3]; unfold allStopOrder; rw [hr]; split <;> simp

/-- At a fault entry every configured group is ordered into FLASHING (R64). -/
theorem faultEntry_state (c : FaultCause) (a b : Byte) (s : State) (g : GroupNo) (hg : s.configured g = true) :
    ((faultEntry c a b s).group g).state = .flashing := by
  exact orderAll_state .flashing _ g hg

/-- The state after the parts of a fault entry that are not orders or records. -/
def faultState (c : FaultCause) (a b : Byte) (s : State) : State :=
  setNormalPending false (setMode .faultFlash .fault { s with store := { s.store with nv := { s.store.nv with
    lastFault := ⟨some c, a, b, s.clock, s.mode.mode⟩
    faultEntries := satAdd s.store.nv.faultEntries Config.counterLimit } } })

/-- Fault entry: the new mode, fault record and counter, and then moves of groups (R64, R65). -/
theorem faultEntry_move (c : FaultCause) (a b : Byte) (s : State) : GroupFrame (faultState c a b s) (faultEntry c a b s) :=
  ((submit_moves 0 _ _ _ _).1.trans (submit_moves 0 _ _ _ _).1).trans (orderAll_move .flashing _)

theorem faultEntry_mode (c : FaultCause) (a b : Byte) (s : State) : (faultEntry c a b s).mode.mode = .faultFlash :=
  (faultEntry_move c a b s).modeMode

/-- A declaration taken in FAULT_FLASH submits its record and does nothing else (R66). -/
theorem declareFault_latched (c : FaultCause) (a b : Byte) (s : State) (h : s.mode.mode = .faultFlash) :
    declareFault c a b s = submit .fault a (faultDetail c b true) s := by rw [declareFault, if_pos h]

/-- A declaration taken outside FAULT_FLASH is a fault entry (R64). -/
theorem declareFault_entry (c : FaultCause) (a b : Byte) (s : State) (h : s.mode.mode ≠ .faultFlash) :
    declareFault c a b s = faultEntry c a b s := by rw [declareFault, if_neg h]

/-- Whatever the mode, after a declaration it is FAULT_FLASH. -/
theorem declareFault_mode (c : FaultCause) (a b : Byte) (s : State) : (declareFault c a b s).mode.mode = .faultFlash := by
  unfold declareFault; split
  · assumption
  · exact faultEntry_mode c a b s

end Sys2Proof.Machine
end

