-- ==== Sys2Proof/Laws/Queue.lean ====
section
/-! SUPPORT. The event queue's operations once: what a submission, a take and a write of reader B's enable do, and that each keeps the
queue's shape (R148 to R155). -/

namespace Sys2Proof.Machine

open Sys2Proof

/-! ### One submission as the queue takes it -/

/-- All that taking a submission can do (R148, R154, R155). -/
theorem Queue.store_cases (q : Queue) (r : Record) :
    (q.held.length < 128 ∧ q.store r =
      { q with held := q.held ++ [{ r with missed := q.missed }], missed := 0, fresh := q.fresh + 1, dropped := [] }) ∨
    (128 ≤ q.held.length ∧ q.store r =
      { q with missed := min (q.missed + 1) 255, dropped := q.dropped ++ [{ r with missed := q.missed }] }) := by
  by_cases h : q.held.length < 128
  · exact .inl ⟨h, by simp [Queue.store, Config.queueDepth, h]⟩
  · exact .inr ⟨Nat.not_lt.1 h, by simp [Queue.store, Config.queueDepth, h, satAdd, Config.byteLimit]⟩

/-- What the queue takes is what the record says; the missed count it carries is the queue's. -/
@[simp] theorem Queue.store_missed (q : Queue) (r : Record) (n : Nat) : q.store { r with missed := n } = q.store r := rfl

theorem Queue.store_room {q : Queue} (h : q.held.length < 128) (r : Record) : q.store r =
    { q with held := q.held ++ [{ r with missed := q.missed }], missed := 0, fresh := q.fresh + 1, dropped := [] } := by
  rcases q.store_cases r with ⟨-, e⟩ | ⟨k, -⟩
  · exact e
  · omega

theorem Queue.store_full {q : Queue} (h : 128 ≤ q.held.length) (r : Record) : q.store r =
    { q with missed := min (q.missed + 1) 255, dropped := q.dropped ++ [{ r with missed := q.missed }] } := by
  rcases q.store_cases r with ⟨k, -⟩ | ⟨-, e⟩
  · omega
  · exact e

theorem QueueInv.store {q : Queue} (h : QueueInv q) (r : Record) : QueueInv (q.store r) := by
  obtain ⟨h1, h2, h3, h4, h5, h6, h7, h8, h9⟩ := h
  rcases q.store_cases r with ⟨hl, e⟩ | ⟨hl, e⟩ <;> rw [e] <;> refine ⟨?_, ?_, ?_, h4, h5, ?_, ?_, ?_⟩ <;>
    simp only [List.length_append, List.length_cons, List.length_nil, List.mem_append, List.mem_singleton, ne_eq,
      not_true_eq_false, false_implies, List.not_mem_nil] <;> first | omega | trivial | skip
  · exact ⟨fun x hx => by
      rcases hx with hx | rfl
      · exact h8 x hx
      · exact h6, fun _ => trivial⟩
  · exact ⟨h8, fun x hx => by
      rcases hx with hx | rfl
      · exact h9 x hx
      · exact h6⟩

theorem QueueInv.stores {q : Queue} (h : QueueInv q) (rs : List Record) : QueueInv (rs.foldl Queue.store q) := by
  induction rs generalizing q with
  | nil => exact h
  | cons r rs ih => exact ih (h.store r)

/-- Submissions change the held records, the missed count and the moment alone. -/
theorem Queue.stores_rest (rs : List Record) : ∀ q : Queue, rs.foldl Queue.store q = { q with
    held := (rs.foldl Queue.store q).held, missed := (rs.foldl Queue.store q).missed
    fresh := (rs.foldl Queue.store q).fresh, dropped := (rs.foldl Queue.store q).dropped } := by
  induction rs with
  | nil => intro q; rfl
  | cons r rs ih =>
    intro q
    rw [List.foldl_cons]
    conv_lhs => rw [ih (q.store r)]
    rcases q.store_cases r with ⟨-, e⟩ | ⟨-, e⟩ <;> rw [e]

/-- With room for all, records taken one after another stand at the tail in their order. -/
theorem Queue.stores_contents (rs : List Record) : ∀ q : Queue, q.held.length + rs.length ≤ 128 →
    (rs.foldl Queue.store q).contents = q.contents ++ rs.map Record.content := by
  induction rs with
  | nil => intro q _; simp
  | cons r rs ih =>
    intro q h
    have hl : q.held.length < 128 := by simp only [List.length_cons] at h; omega
    rw [List.foldl_cons, ih (q.store r) (by rw [Queue.store_room hl]; simp only [List.length_append, List.length_cons] at h ⊢; simp; omega)]
    rw [Queue.store_room hl]; simp [Queue.contents, Record.content]

/-! ### The submissions of the present moment -/

/-- The held part of a moment's submissions. -/
theorem Queue.moment_length (q : Queue) : q.moment.length =
    min q.fresh q.held.length + (if q.held.length < 128 then 0 else q.dropped.length) := by
  unfold Queue.moment
  by_cases h : q.held.length < 128 <;> simp [Config.queueDepth, h] <;> omega

theorem Queue.rewind_held (q : Queue) (n : Nat) :
    (q.rewind n).held = q.held.take (q.held.length - q.fresh + (q.moment.length - n)) := by
  unfold Queue.rewind Queue.moment
  generalize hd : (if q.held.length < Config.queueDepth then ([] : List Record) else q.dropped) = d
  have hs : min q.fresh q.held.length = (q.held.drop (q.held.length - q.fresh)).length := by rw [List.length_drop]; omega
  simp only [List.take_take, hs]
  rw [List.take_append_of_le_length (Nat.min_le_left _ _), List.take_add]
  congr 1
  generalize hm : (q.held.drop (q.held.length - q.fresh) ++ d).length - n = m
  by_cases h : m ≤ (q.held.drop (q.held.length - q.fresh)).length
  · rw [Nat.min_eq_right h]
  · rw [Nat.min_eq_left (by omega), List.take_length, List.take_of_length_le (by omega)]

theorem Queue.rewind_fresh (q : Queue) (n : Nat) : (q.rewind n).fresh = min (min q.fresh q.held.length) (q.moment.length - n) := by
  unfold Queue.rewind
  simp only [List.length_take]; omega

theorem Queue.rewind_dropped (q : Queue) (n : Nat) : (q.rewind n).dropped =
    (q.moment.take (q.moment.length - n)).drop (min q.fresh q.held.length) := rfl

@[simp] theorem Queue.rewind_takenA (q : Queue) (n : Nat) : (q.rewind n).takenA = q.takenA := rfl
@[simp] theorem Queue.rewind_takenB (q : Queue) (n : Nat) : (q.rewind n).takenB = q.takenB := rfl
@[simp] theorem Queue.rewind_enabledB (q : Queue) (n : Nat) : (q.rewind n).enabledB = q.enabledB := rfl
@[simp] theorem Queue.rewind_accessed (q : Queue) (n : Nat) : (q.rewind n).accessed = q.accessed := rfl
@[simp] theorem Queue.rewind_sampled (q : Queue) (n : Nat) : (q.rewind n).sampled = q.sampled := rfl
@[simp] theorem Queue.rewind_choices (q : Queue) (n : Nat) : (q.rewind n).choices = q.choices := rfl

/-- The missed counts of a moment's submissions are those of held and of dropped records. -/
theorem QueueInv.moment_counts {q : Queue} (h : QueueInv q) : ∀ r ∈ q.moment, r.missed ≤ 255 := by
  intro r hr
  unfold Queue.moment at hr
  rcases List.mem_append.mp hr with hr | hr
  · exact h.counts.1 r (List.mem_of_mem_drop hr)
  · split at hr
    · cases hr
    · exact h.counts.2 r hr

theorem QueueInv.rewind {q : Queue} (h : QueueInv q) (n : Nat) : QueueInv (q.rewind n) := by
  have hc := h.moment_counts
  obtain ⟨h1, h2, h3, h4, h5, h6, h7, h8, h9⟩ := h
  have hm := q.moment_length
  refine ⟨?_, ?_, ?_, h4, h5, ?_, ?_, ?_, ?_⟩
  · rw [Queue.rewind_held, List.length_take]; omega
  · rw [Queue.rewind_held, Queue.rewind_fresh, List.length_take, Queue.rewind_takenA]; omega
  · rw [Queue.rewind_held, Queue.rewind_fresh, List.length_take, Queue.rewind_takenB]; omega
  · show ((q.late n).head?.map (·.missed)).getD q.missed ≤ 255
    rcases hl : q.late n with _ | ⟨r, l⟩
    · exact h6
    · exact hc r (List.mem_of_mem_drop (show r ∈ q.late n by rw [hl]; exact List.mem_cons_self))
  · intro hd
    rw [Queue.rewind_dropped] at hd
    have hl : min q.fresh q.held.length < q.moment.length - n := by
      by_contra hx
      exact hd (List.drop_eq_nil_of_le (by rw [List.length_take]; omega))
    have hf : ¬q.held.length < 128 := by intro hx; rw [if_pos hx] at hm; omega
    rw [Queue.rewind_held, List.length_take]; omega
  · intro r hr
    rw [Queue.rewind_held] at hr
    exact h8 r (List.mem_of_mem_take hr)
  · intro r hr
    rw [Queue.rewind_dropped] at hr
    exact hc r (List.mem_of_mem_take (List.mem_of_mem_drop hr))

/-- Whatever act keeps the queue's shape keeps it part-way through a moment's submissions too. -/
theorem QueueInv.partWay {q : Queue} (h : QueueInv q) (n : Nat) {act : Queue → Queue} (ha : ∀ q, QueueInv q → QueueInv (act q)) :
    QueueInv (q.partWay n act) := by
  cases n with
  | zero => exact ha q h
  | succ n => exact (ha _ (h.rewind _)).stores _

theorem QueueInv.submit {q : Queue} (h : QueueInv q) (k : EventKind) (stamp : Word) (x : Byte) (d : Word) :
    QueueInv (q.submit k stamp x d) := by
  have := h.partWay (q.place ⟨k, stamp, x, d, 0⟩) (act := (·.store ⟨k, stamp, x, d, 0⟩)) fun q h => h.store _
  exact ⟨this.depth, this.takenA, this.takenB, this.disabled, this.shared, this.missed, this.full, this.counts⟩

theorem QueueInv.settled {q : Queue} (h : QueueInv q) : QueueInv q.settled :=
  ⟨h.depth, Nat.le_trans (Nat.le_add_right _ _) h.takenA, Nat.le_trans (Nat.le_add_right _ _) h.takenB, h.disabled, h.shared, h.missed,
    fun hd => absurd rfl hd, h.counts.1, fun _ hr => nomatch hr⟩

/-- The shape does not speak of what else was taken at the moment. -/
theorem QueueInv.noted {q : Queue} (h : QueueInv q) (a b : Bool) : QueueInv { q with accessed := a, sampled := b } :=
  ⟨h.depth, h.takenA, h.takenB, h.disabled, h.shared, h.missed, h.full, h.counts⟩

theorem QueueInv.endMoment {q : Queue} (h : QueueInv q) : QueueInv q.endMoment := h.settled.noted false false

theorem QueueInv.atAccess {q : Queue} (h : QueueInv q) : QueueInv q.atAccess := by
  unfold Queue.atAccess
  split
  · exact h.endMoment.noted true _
  · exact h.noted true _

theorem QueueInv.atSample {q : Queue} (h : QueueInv q) : QueueInv q.atSample := by
  unfold Queue.atSample
  split
  · exact h.endMoment.noted _ true
  · exact h.noted _ true

/-- All that a sample's moment does to the queue (R128). -/
theorem Queue.atSample_cases (q : Queue) :
    (q.sampled = true ∧ q.atSample = { q with fresh := 0, dropped := [], accessed := false, sampled := true }) ∨
    (q.sampled = false ∧ q.atSample = { q with sampled := true }) := by
  rcases h : q.sampled with _ | _
  · exact .inr ⟨rfl, by simp [Queue.atSample, h]⟩
  · exact .inl ⟨rfl, by simp [Queue.atSample, h, Queue.endMoment, Queue.settled]⟩

/-- The newest submission is taken back first. -/
theorem Queue.moment_store {q : Queue} (h : QueueInv q) (r : Record) :
    (q.store r).moment = q.moment ++ [{ r with missed := q.missed }] := by
  have hf := h.takenA
  rcases q.store_cases r with ⟨hl, e⟩ | ⟨hl, e⟩ <;> rw [e] <;> unfold Queue.moment
  · have hn : q.held.length + 1 - (q.fresh + 1) = q.held.length - q.fresh := by omega
    simp only [List.length_append, List.length_cons, List.length_nil, Nat.zero_add, hn, Config.queueDepth, hl, if_true, List.append_nil]
    rw [List.drop_append_of_le_length (by omega)]; simp
  · simp [Config.queueDepth, Nat.not_lt.mpr hl]

theorem Queue.rewind_store {q : Queue} (h : QueueInv q) (r : Record) (n : Nat) : (q.store r).rewind (n + 1) = q.rewind n := by
  have hf := h.takenA
  have hm := Queue.moment_store h r
  have hmq := q.moment_length
  have hk : (q.store r).moment.take ((q.store r).moment.length - (n + 1)) = q.moment.take (q.moment.length - n) := by
    rw [hm, List.length_append, List.length_singleton, Nat.add_sub_add_right, List.take_append_of_le_length (by omega)]
  have hl : (((q.store r).late (n + 1)).head?.map (·.missed)).getD (q.store r).missed =
      ((q.late n).head?.map (·.missed)).getD q.missed := by
    unfold Queue.late
    rw [hm, List.length_append, List.length_singleton, Nat.add_sub_add_right, List.drop_append_of_le_length (by omega)]
    rcases hd : q.moment.drop (q.moment.length - n) with _ | ⟨y, l⟩ <;> simp
  unfold Queue.rewind
  rw [hk, hl]
  rcases q.store_cases r with ⟨hr, e⟩ | ⟨hr, e⟩
  · rw [if_pos hr] at hmq
    have ht : ∀ m, min q.fresh q.held.length ≤ m → (q.moment.take (q.moment.length - n)).take m = q.moment.take (q.moment.length - n) :=
      fun m hm => List.take_of_length_le (by rw [List.length_take]; omega)
    have hd : ∀ m, min q.fresh q.held.length ≤ m → (q.moment.take (q.moment.length - n)).drop m = [] :=
      fun m hm => List.drop_eq_nil_of_le (by rw [List.length_take]; omega)
    have hn : q.held.length + 1 - (q.fresh + 1) = q.held.length - q.fresh := by omega
    rw [e]
    simp only [List.length_append, List.length_cons, List.length_nil, Nat.zero_add, hn]
    rw [ht _ (by omega), ht _ (Nat.le_refl _), hd _ (by omega), hd _ (Nat.le_refl _), List.take_append_of_le_length (by omega)]
  · rw [e]

/-- Submissions taken one after another are taken back together. -/
theorem Queue.rewind_stores (rs : List Record) : ∀ {q : Queue}, QueueInv q → ∀ n,
    (rs.foldl Queue.store q).rewind (rs.length + n) = q.rewind n := by
  induction rs with
  | nil => intro q _ n; simp
  | cons r rs ih =>
    intro q h n
    rw [List.foldl_cons, List.length_cons, Nat.add_right_comm, Nat.add_assoc, ih (h.store r) (n + 1), Queue.rewind_store h]

theorem Queue.rewind_zero {q : Queue} (h : QueueInv q) : q.rewind 0 = q := by
  have hf := h.takenA
  have hm : q.moment.length - 0 = q.moment.length := rfl
  unfold Queue.rewind Queue.late
  simp only [hm, List.take_length, List.drop_length, List.head?_nil, Option.map_none, Option.getD_none]
  have hs : min q.fresh q.held.length = (q.held.drop (q.held.length - q.fresh)).length := by rw [List.length_drop]; omega
  rw [hs]; unfold Queue.moment
  rw [List.take_left, List.drop_left, List.take_append_drop, List.length_drop]
  have hd : (if q.held.length < Config.queueDepth then [] else q.dropped) = q.dropped := by
    split
    · rename_i hl
      by_contra hx
      have := h.full (fun e => hx e.symm)
      simp [Config.queueDepth] at hl; omega
    · rfl
  rw [hd, show q.held.length - (q.held.length - q.fresh) = q.fresh by omega]

theorem Queue.moment_stores (rs : List Record) : ∀ {q : Queue}, QueueInv q →
    ∃ late : List Record, (rs.foldl Queue.store q).moment = q.moment ++ late ∧ late.length = rs.length ∧
      ∀ t : Queue, late.foldl Queue.store t = rs.foldl Queue.store t := by
  induction rs with
  | nil => intro q _; exact ⟨[], by simp, rfl, fun _ => rfl⟩
  | cons r rs ih =>
    intro q h
    obtain ⟨l, h1, h2, h3⟩ := ih (h.store r)
    refine ⟨{ r with missed := q.missed } :: l, ?_, by simp [h2], fun t => ?_⟩
    · rw [List.foldl_cons, h1, Queue.moment_store h]; simp
    · rw [List.foldl_cons, List.foldl_cons, Queue.store_missed, h3]

/-- An act part-way through a moment: what it makes of the queue before the later submissions, and then those (R151, R152, R153). -/
theorem Queue.partWay_stores {q : Queue} (h : QueueInv q) (rs : List Record) (act : Queue → Queue) :
    (rs.foldl Queue.store q).partWay rs.length act = rs.foldl Queue.store (act q) := by
  obtain ⟨l, h1, h2, h3⟩ := Queue.moment_stores rs h
  rcases hn : rs.length with _ | n
  · rw [List.length_eq_zero_iff.mp hn]; rfl
  · show ((rs.foldl Queue.store q).late (n + 1)).foldl Queue.store (act ((rs.foldl Queue.store q).rewind (n + 1))) = _
    rw [← hn, show rs.length = rs.length + 0 from rfl, Queue.rewind_stores rs h 0, Queue.rewind_zero h]
    rw [show (rs.foldl Queue.store q).late (rs.length + 0) = l by
      unfold Queue.late
      rw [h1, List.length_append, h2, Nat.add_zero, Nat.add_sub_cancel, List.drop_left]]
    exact h3 _

/-- An access part-way through a moment: what it makes of the state before the later submissions, and then those (R151, R152, R153). -/
theorem partWay_stores {u : State} (hh : u.held = false) (hq : QueueInv u.queue) (ha : u.queue.accessed = false) (rs : List Record)
    (access : State → State) : partWay rs.length access { u with queue := rs.foldl Queue.store u.queue } =
      { access u with queue := rs.foldl Queue.store (access u).queue } := by
  obtain ⟨l, h1, h2, h3⟩ := Queue.moment_stores rs hq
  have hs : (({ u with queue := rs.foldl Queue.store u.queue } : State).held || (rs.foldl Queue.store u.queue).accessed) = false := by
    rw [show ({ u with queue := rs.foldl Queue.store u.queue } : State).held = u.held from rfl, hh, Queue.stores_rest rs u.queue]
    simpa using ha
  have hm : min rs.length (rs.foldl Queue.store u.queue).moment.length = rs.length := by
    rw [h1, List.length_append, h2]; omega
  unfold partWay
  simp only [hs, Bool.false_eq_true, if_false, hm]
  rcases hn : rs.length with _ | n
  · rw [List.length_eq_zero_iff.mp hn]; rfl
  · have hr : (rs.foldl Queue.store u.queue).rewind (n + 1) = u.queue := by
      rw [← hn, show rs.length = rs.length + 0 from rfl, Queue.rewind_stores rs hq 0, Queue.rewind_zero hq]
    have hl : (rs.foldl Queue.store u.queue).late (n + 1) = l := by
      unfold Queue.late; rw [h1, List.length_append, h2, ← hn, Nat.add_sub_cancel, List.drop_left]
    simp only [hr, hl, h3]

/-- With none to follow it an access is taken as it comes. -/
@[simp] theorem partWay_zero (access : State → State) (s : State) : partWay 0 access s = access s := by
  simp [partWay]

/-! ### A submission at its place -/

/-- Taken at whatever place, a submission changes the held records, the missed count and the moment alone. -/
theorem Queue.partWay_store_rest (q : Queue) (n : Nat) (r : Record) : q.partWay n (·.store r) = { q with
    held := (q.partWay n (·.store r)).held, missed := (q.partWay n (·.store r)).missed
    fresh := (q.partWay n (·.store r)).fresh, dropped := (q.partWay n (·.store r)).dropped } := by
  rcases n with _ | n
  · exact Queue.stores_rest [r] q
  · show ((q.late (n + 1)).foldl Queue.store ((q.rewind (n + 1)).store r)) = _
    conv_lhs => rw [← List.foldl_cons, Queue.stores_rest]
    rfl

/-- A submission changes the held records, the missed count, the moment and the number of choices taken alone. -/
theorem Queue.submit_rest (q : Queue) (k : EventKind) (stamp : Word) (x : Byte) (d : Word) : q.submit k stamp x d = { q with
    held := (q.submit k stamp x d).held, missed := (q.submit k stamp x d).missed
    fresh := (q.submit k stamp x d).fresh, dropped := (q.submit k stamp x d).dropped, choices := q.choices + 1 } := by
  have h := q.partWay_store_rest (q.place ⟨k, stamp, x, d, 0⟩) ⟨k, stamp, x, d, 0⟩
  show ({ q.partWay _ _ with choices := q.choices + 1 } : Queue) = _
  conv_lhs => rw [h]
  rfl

/-- A record passes no submission it must follow. -/
theorem Queue.passes_late (q : Queue) (r : Record) {n : Nat} (hn : n ≤ q.passes r) : ∀ x ∈ q.late n, mustFollow r x = false := by
  intro x hx
  have h1 : x ∈ q.moment.reverse.take n := by
    unfold Queue.late at hx
    rw [List.take_reverse, List.mem_reverse]; exact hx
  have h2 : q.moment.reverse.take n = (q.moment.reverse.takeWhile fun x => !mustFollow r x).take n := by
    have hp : (q.moment.reverse.takeWhile fun x => !mustFollow r x) <+: q.moment.reverse := List.takeWhile_prefix _
    obtain ⟨t, ht⟩ := hp
    conv_lhs => rw [← ht]
    rw [List.take_append_of_le_length hn]
  rw [h2] at h1
  have := List.mem_takeWhile_imp (List.mem_of_mem_take h1)
  simpa using this

theorem Queue.place_le (q : Queue) (r : Record) : q.place r ≤ q.passes r := by
  unfold Queue.place; split
  · exact Nat.zero_le _
  · rename_i h; rw [h]; exact Nat.min_le_right _ _

theorem Queue.passes_le (q : Queue) (r : Record) : q.passes r ≤ q.moment.length := by
  unfold Queue.passes
  have hp : (q.moment.reverse.takeWhile fun x => !mustFollow r x) <+: q.moment.reverse := List.takeWhile_prefix _
  simpa using hp.length_le

/-- With room a submission stands in the queue before at most the newest submissions of its moment, each of which it need not follow
(R148). -/
theorem Queue.submit_contents {q : Queue} (h : q.held.length < 128) (k : EventKind) (stamp : Word) (x : Byte) (d : Word) :
    ∃ n, n ≤ min q.fresh q.held.length ∧
      (∀ y ∈ q.held.drop (q.held.length - n), mustFollow ⟨k, stamp, x, d, 0⟩ y = false) ∧
      (q.submit k stamp x d).contents =
        q.contents.take (q.held.length - n) ++ (k, stamp, x, d) :: q.contents.drop (q.held.length - n) := by
  have hm := q.moment_length
  rw [if_pos h] at hm
  have h1 := q.place_le ⟨k, stamp, x, d, 0⟩
  have h2 := q.passes_le ⟨k, stamp, x, d, 0⟩
  have hl := q.passes_late ⟨k, stamp, x, d, 0⟩ h1
  have he : ∀ n, n ≤ min q.fresh q.held.length → q.late n = q.held.drop (q.held.length - n) := by
    intro n hn
    unfold Queue.late Queue.moment
    simp only [Config.queueDepth, h, if_true, List.append_nil, List.length_drop, List.drop_drop]
    congr 1; omega
  refine ⟨q.place ⟨k, stamp, x, d, 0⟩, by omega, by rw [← he _ (by omega)]; exact hl, ?_⟩
  show ((q.partWay _ _ : Queue)).held.map Record.content = _
  generalize hn : q.place ⟨k, stamp, x, d, 0⟩ = n at *
  rcases n with _ | n
  · show (q.store _).held.map Record.content = _
    rw [Queue.store_room h]; simp [Queue.contents, Record.content, ← List.map_take, ← List.map_drop]
  · show Queue.contents ((q.late (n + 1)).foldl Queue.store ((q.rewind (n + 1)).store _)) = _
    have hr : (q.rewind (n + 1)).held = q.held.take (q.held.length - (n + 1)) := by
      rw [Queue.rewind_held]; congr 1; omega
    have hrl : (q.rewind (n + 1)).held.length = q.held.length - (n + 1) := by rw [hr, List.length_take]; omega
    have hll : (q.late (n + 1)).length = n + 1 := by rw [he _ (by omega), List.length_drop]; omega
    rw [Queue.stores_contents _ _ (by rw [Queue.store_room (by omega), List.length_append, hrl, hll]; simp; omega),
      Queue.store_room (by omega), he _ (by omega)]
    simp [Queue.contents, Record.content, hr]

/-- With room a submission is the newest record of its block, and the records of every other block stand as they did (R148). -/
theorem Queue.submit_ofBlock {q : Queue} (h : q.held.length < 128) (k : EventKind) (stamp : Word) (x : Byte) (d : Word) (b : Block) :
    (q.submit k stamp x d).ofBlock b = q.ofBlock b ++ if k.block = b then [(k, stamp, x, d)] else [] := by
  obtain ⟨n, -, h2, h3⟩ := Queue.submit_contents h k stamp x d
  unfold Queue.ofBlock
  rw [h3, List.filter_append, List.filter_cons]
  conv_rhs => rw [← List.take_append_drop (q.held.length - n) q.contents, List.filter_append]
  by_cases hb : k.block = b
  · have hn : (q.contents.drop (q.held.length - n)).filter (fun x => decide (x.1.block = b)) = [] := by
      rw [List.filter_eq_nil_iff]
      intro y hy
      rw [Queue.contents, ← List.map_drop] at hy
      obtain ⟨z, hz, rfl⟩ := List.mem_map.mp hy
      have := h2 z hz
      simp only [mustFollow, Bool.or_eq_false_iff, decide_eq_false_iff_not] at this
      simpa [Record.content, ← hb, eq_comm] using this.1.1
    simp [hb, hn]
  · simp [hb]

/-- With room a submission lengthens the queue by one record, and otherwise by none. -/
theorem Queue.submit_length {q : Queue} (h : q.held.length < 128) (k : EventKind) (stamp : Word) (x : Byte) (d : Word) :
    (q.submit k stamp x d).held.length = q.held.length + 1 := by
  obtain ⟨n, h1, -, h3⟩ := Queue.submit_contents h k stamp x d
  have := congrArg List.length h3
  simp only [Queue.contents, List.length_map, List.length_append, List.length_cons, List.length_take, List.length_drop] at this
  omega

/-- With room a submission removes no held record. -/
theorem Queue.mem_submit {q : Queue} (hl : q.held.length < 128) {c : EventKind × Word × Byte × Word} (h : c ∈ q.contents) (k : EventKind)
    (stamp : Word) (x : Byte) (d : Word) : c ∈ (q.submit k stamp x d).contents := by
  obtain ⟨n, -, -, h3⟩ := Queue.submit_contents hl k stamp x d
  rw [h3]
  rw [← List.take_append_drop (q.held.length - n) q.contents] at h
  rcases List.mem_append.mp h with h | h <;> simp [h]

/-! ### Takes and the enable of reader B -/

/-- Records taken out leave missed counts in range. -/
theorem QueueInv.counts_of_subset {q : Queue} (h : QueueInv q) {l : List Record} (hl : ∀ r ∈ l, r ∈ q.held) :
    (∀ r ∈ l, r.missed ≤ 255) ∧ ∀ r ∈ q.settled.dropped, r.missed ≤ 255 :=
  ⟨fun r hr => h.counts.1 r (hl r hr), fun _ hr => nomatch hr⟩

theorem QueueInv.takeA {q : Queue} (h : QueueInv q) : QueueInv q.takeA := by
  have hc := h.counts_of_subset (l := q.held) fun _ => id
  have he := h.counts_of_subset (l := q.held.eraseIdx q.takenA) fun _ => List.mem_of_mem_eraseIdx
  have hs := h
  obtain ⟨h1, h2, h3, h4, h5, h6, -, -⟩ := h
  unfold Queue.takeA
  split
  · exact hs
  · rename_i hv
    have hlt : q.takenA < q.held.length := by
      simp only [Queue.viewA, List.isEmpty_iff, List.drop_eq_nil_iff, Nat.not_le] at hv; exact hv
    split
    · rename_i hb
      have hn : q.takenA = 0 := by
        rcases hb with hb | hb
        · exact (h4 hb).1
        · omega
      have hd : q.enabledB = false → q.takenB = 0 := fun e => (h4 e).2
      refine ⟨?_, ?_, ?_, fun e => ⟨hn, ?_⟩, .inl hn, h6, fun e => absurd rfl e, he⟩ <;>
        simp only [Queue.settled, List.length_eraseIdx, hlt, if_true]
      · omega
      · omega
      · rcases hb with hb | hb
        · have := hd hb; omega
        · omega
      · have := hd e; omega
    · rename_i hb
      simp only [not_or, Bool.not_eq_false, Nat.not_lt] at hb
      refine ⟨h1, ?_, ?_, fun e => ?_, ?_, h6, fun e => absurd rfl e, hc⟩ <;> simp only [Queue.settled] at *
      · omega
      · omega
      · rw [hb.1] at e; exact absurd e (by simp)
      · omega

theorem QueueInv.takeB {q : Queue} (h : QueueInv q) : QueueInv q.takeB := by
  have hc := h.counts_of_subset (l := q.held) fun _ => id
  have he := h.counts_of_subset (l := q.held.eraseIdx q.takenB) fun _ => List.mem_of_mem_eraseIdx
  have hs := h
  obtain ⟨h1, h2, h3, h4, h5, h6, -, -⟩ := h
  unfold Queue.takeB
  split
  · exact hs
  · rename_i hv
    have hb : q.enabledB = true := by
      by_contra hb; simp [Queue.viewB, hb] at hv
    have hlt : q.takenB < q.held.length := by
      simp only [Queue.viewB, hb, if_true, List.isEmpty_iff, List.drop_eq_nil_iff, Nat.not_le] at hv; exact hv
    split
    · refine ⟨?_, ?_, ?_, fun e => ?_, ?_, h6, fun e => absurd rfl e, he⟩ <;>
        simp only [Queue.settled, List.length_eraseIdx, hlt, if_true] at *
      · omega
      · omega
      · omega
      · rw [hb] at e; exact absurd e (by simp)
      · omega
    · refine ⟨h1, ?_, ?_, fun e => ?_, ?_, h6, fun e => absurd rfl e, hc⟩ <;> simp only [Queue.settled] at *
      · omega
      · omega
      · rw [hb] at e; exact absurd e (by simp)
      · omega

theorem QueueInv.take {q : Queue} (h : QueueInv q) (r : Reader) : QueueInv (q.take r) := by
  cases r
  · exact h.takeA
  · exact h.takeB

theorem QueueInv.setEnableB {q : Queue} (h : QueueInv q) (b : Bool) : QueueInv (q.setEnableB b) := by
  have hc := h.counts_of_subset (l := q.held) fun _ => id
  have he := h.counts_of_subset (l := q.held.drop q.takenA) fun _ => List.mem_of_mem_drop
  have hs := h
  obtain ⟨h1, h2, h3, h4, h5, h6, -, -⟩ := h
  unfold Queue.setEnableB
  split
  · exact hs
  · rename_i hb
    split
    · rename_i ht
      have hf : q.enabledB = false := by simpa [ht] using hb
      exact ⟨h1, by simp only [Queue.settled]; omega, Nat.le_refl _, fun e => absurd e (by simp), .inl (h4 hf).1, h6,
        fun e => absurd rfl e, hc⟩
    · exact ⟨by simp only [List.length_drop]; omega, Nat.zero_le _, Nat.zero_le _, fun _ => ⟨rfl, rfl⟩, .inl rfl, h6,
        fun e => absurd rfl e, he⟩

end Sys2Proof.Machine
end

