-- ==== Sys2Proof/Laws/Signs.lean ====
section
/-! SUPPORT. The channel byte once: when it may begin, and all it can do (R134). -/

namespace Sys2Proof.Machine

open Sys2Proof

/-- The parts that can move a group are all taken (R134). -/
theorem EventParts.groupsMoved_iff (p : EventParts) : p.groupsMoved = true ↔
    p.sequencer = false ∧ p.arbiter = false ∧ p.modeTimer = false ∧ p.liveness = false ∧ p.hold0 = false ∧ p.hold1 = false ∧
      p.switch = false ∧ p.lamps = false := by
  simp [EventParts.groupsMoved, and_assoc]

/-- All a channel byte's command can do: a byte goes onto the line where a frame has one left and the groups have moved, and nothing changes
otherwise (R134). -/
theorem channelByteStart_cases (s : State) :
    (∃ f, s.link.frame = some f ∧ s.parts.groupsMoved = true ∧ nextChannel s < f.count ∧
      channelByteStart s = { s with link := { s.link with line := s.link.line ++ [channelValue s (nextChannel s)] } }) ∨
    channelByteStart s = s := by
  rcases hf : s.link.frame with _ | f
  · exact .inr (by simp [channelByteStart, hf])
  · by_cases h : s.parts.groupsMoved = true ∧ nextChannel s < f.count
    · exact .inl ⟨f, rfl, h.1, h.2, by simp [channelByteStart, hf, h]⟩
    · exact .inr (by simp only [channelByteStart, hf, h, if_false])

/-- Before those parts are taken a channel byte's command is no event. -/
theorem channelByteStart_waits {s : State} (h : s.parts.groupsMoved = false) : channelByteStart s = s := by
  rcases channelByteStart_cases s with ⟨f, -, h', -⟩ | e
  · rw [h] at h'; exact absurd h' (by simp)
  · exact e

end Sys2Proof.Machine
end

