-- ==== Sys2Proof/Laws/Tables.lean ====
section
/-! SUPPORT. Validation once: a set of tables passes exactly where each of the ten conditions passes, and a search for the least offender
finds none exactly where there is none (R169). -/

namespace Sys2Proof.Machine

open Sys2Proof

theorem violation_none (code : Nat) (sec : Section) (v : Option Nat) : violation code sec v = none ↔ v = none := by
  simp [violation]

theorem firstViolation_none (t : Tables) : t.firstViolation = none ↔
    v01 t = none ∧ v02 t = none ∧ v03 t = none ∧ v04 t = none ∧ v05 t = none ∧ v06 t = none ∧ v07 t = none ∧ v08 t = none ∧
      v09 t = none ∧ v10 t = none := by
  simp only [Tables.firstViolation, Option.or_eq_none_iff, violation_none]

theorem leastGroup_none (bad : GroupNo → Bool) : leastGroup bad = none ↔ ∀ g, bad g = false := by
  simp [leastGroup]

theorem leastPair_none (bad : GroupNo → GroupNo → Bool) : leastPair bad = none ↔ ∀ j i, bad j i = false := by
  simp [leastPair]

theorem leastSign_none (bad : SignNo → Bool) : leastSign bad = none ↔ ∀ r, bad r = false := by
  simp [leastSign]

end Sys2Proof.Machine
end

