-- ==== Sys2Proof/Tests/Slice0.lean ====
section
/-! SUPPORT. The tests: ill-formed commands that WellFormed refuses; the manual's worked cases, one step each; and for every statement with
hypotheses a concrete state and operands that meet them, each clause at a boundary of its range. -/

namespace Sys2Proof.Tests

set_option Elab.async false

open Sys2Proof Sys2Proof.Machine

/-! ### The cabinet of the worked cases -/

/-- The groups of chapter 2's worked case with the flash aspects of chapter 3's, proving ON, and a red that is redundant for g3. -/
def groupTable : List GroupRecord :=
  [⟨0, true, false, 1, 100, 20, 30⟩, ⟨0, true, false, 1, 70, 20, 30⟩, ⟨1, true, false, 0, 60, 0, 80⟩, ⟨0, true, true, 2, 70, 20, 40⟩]

/-- The intergreens of chapter 2's worked case. -/
def intergreenTable : List (List Byte) := [[0, 50, 60, 0], [50, 0, 0, 45], [90, 0, 0, 80], [0, 45, 55, 0]]

/-- The two sign records of chapter 8's worked case. -/
def signTable : List SignRecord := [⟨2, 0, 2, 1, 0, false, true⟩, ⟨5, 8, 4, 0xFF, 0, false, false⟩]

/-- The tables of the worked cases: G 4; SF 50, AS 30, FE 40, L 20, PD 3, refusal limit 8; H0 masks g0 and g2, H1 masks g1. -/
def cabinet : Tables where
  conflict := Vector.ofFn fun j => ([6, 9, 9, 6] : List Mask).getD j.val 0
  intergreen := Vector.ofFn fun j => Vector.ofFn fun i => (intergreenTable.getD j.val []).getD i.val 0
  groups := Vector.ofFn fun g => groupTable.getD g.val ⟨0, false, false, 0, 0, 0, 0⟩
  holds := Vector.ofFn fun l => if l = 0 then 5 else 2
  signs := Vector.ofFn fun r => signTable.getD r.val ⟨0, 0, 0, 0, 0, false, false⟩
  timing := ⟨4, 50, 30, 40, 20, 3, 8⟩
  levels := 0b11001111011001

/-- The cabinet in a mode with its groups in one state, every E 400, the clock at 599 and every part of the event due. -/
def desk (m : Mode) (st : GroupState) : State :=
  { State.reset with
    clock := 599
    groups := Vector.ofFn fun g => if g.val < 4 then ⟨st, 0, 0, 0, false, false, 400, 0⟩ else Group.unconfigured
    mode := { ModeControl.atReset with mode := m, cause := .software, running := false }
    store := ⟨{ NonVolatile.factory with active := cabinet, valid := true }, cabinet, false, .none⟩
    parts := EventParts.due }

/-- One group of a state changed. -/
def withGroup (s : State) (g : GroupNo) (x : Group) : State := { s with groups := s.groups.set g x }

/-- The mode controller of a state changed. -/
def withMode (s : State) (f : ModeControl → ModeControl) : State := { s with mode := f s.mode }

/-- One detector of a state changed. -/
def withDetector (s : State) (d : DetectorNo) (x : Detector) : State :=
  { s with detectors := { s.detectors with detectors := s.detectors.detectors.set d x } }

/-- The state a command leaves, where it completes. -/
def after (c : Instr) (s : State) : State :=
  match exec c s with
  | .next t => t
  | .fault _ => s
  | .refused _ => s

/-- Both bytes enabled. -/
def both : ByteEnables := ⟨true, true⟩

/-- A write of both bytes at level 0. -/
def wr (v : Word) : BusWrite := ⟨v, both, 0⟩

/-! ### Ill-formed commands -/

theorem test_wellFormed_conflict_pair : (Instr.conflict 3 3 ⟨0, 0, 0⟩).wellFormed = false := by decide
theorem test_wellFormed_access_without_strobe : (Instr.passedAccess ⟨false, false, 0, both, 0, 0, 0⟩).wellFormed = false := by decide
theorem test_wellFormed_short_reply :
    (Instr.goodReply ⟨1000, 2000, List.replicate 5 ⟨0, false, true⟩⟩).wellFormed = false := by decide
theorem test_wellFormed_reply_order :
    (Instr.goodReply ⟨2000, 2000, List.replicate 6 ⟨0, false, true⟩⟩).wellFormed = false := by decide
theorem test_wellFormed_refused_write_without_enables :
    (Instr.refusalLimitReached 8 ⟨3, ⟨false, false⟩, 0⟩).wellFormed = false := by decide
theorem test_wellFormed_read_of_passed_page : (Instr.lowWordRead 7 0 ⟨both, 0⟩ 0 0).wellFormed = false := by decide
theorem test_wellFormed_write_to_passed_page : (Instr.servedWrite 13 0 (wr 0)).wellFormed = false := by decide
theorem test_wellFormed_reset_over_an_access_without_strobe :
    (Instr.resetAsserted ⟨.external, some ⟨⟨false, false, 0, both, 0, 0, 0⟩, true⟩⟩).wellFormed = false := by decide
theorem test_wellFormed_admits_a_pair : (Instr.conflict 2 3 ⟨0, 0, 0⟩).wellFormed = true := by decide

/-! ### The worked cases -/

/-- Chapter 2, the four groups at instant T. -/
def instantT : State :=
  let s := desk .normal .stop
  let s := { s with page := { s.page with word0 := ⟨6, true, false⟩ } }
  let s := withGroup s 0 ⟨.clearing, 0, 0, 22, false, false, 22, 0⟩
  let s := withGroup s 1 ⟨.stop, 0, 0, 0, false, false, 400, 10⟩
  let s := withGroup s 2 ⟨.stop, 0, 0, 0, false, false, 500, 10⟩
  withGroup s 3 ⟨.stop, 0, 0, 0, false, false, 300, 0⟩

theorem test_waits_at_T :
    (([0, 1, 2, 3] : List GroupNo).map (waitOf instantT) = [0, 28, 38, 0]) ∧ (reported instantT).firstReleasable = 0xFFFF := by
  decide +kernel

/-- Chapter 2, the tie and the walk. -/
def tie : State :=
  let s := desk .normal .stop
  let s := { s with page := { s.page with word0 := ⟨10, true, false⟩ } }
  let s := withGroup s 0 ⟨.stop, 0, 0, 0, false, false, 200, 0⟩
  let s := withGroup s 1 ⟨.stop, 0, 0, 0, false, false, 150, 25⟩
  let s := withGroup s 2 ⟨.stop, 0, 0, 0, false, false, 300, 0⟩
  let s := { s with link := { s.link with signs := s.link.signs.set 0 ⟨.live, 0, ⟨false, false, false⟩⟩ } }
  withGroup s 3 ⟨.stop, 0, 0, 0, false, false, 150, 40⟩

theorem test_tie_and_walk :
    let t := after .evaluation tie
    ((t.group 3).state = .prepare ∧ (t.group 1).state = .stop) ∧ t.arbiter.releasable = 10 ∧ t.arbiter.firstReleasable = 1 ∧
      ([0, 1, 2, 3] : List GroupNo).map (fun g => t.arbiter.waits.get g) = [0, 65535, 65535, 0] := by decide +kernel

/-- Chapter 3, clock 50: the start-flash timer reaches 50 with normal-pending set. -/
def clock50 : State := withMode (desk .startFlash .flashing) fun m => { m with running := true, startFlashTimer := 49, normalPending := true }

theorem test_start_flash_ends_in_all_stop :
    let t := after .startFlashExpiry clock50
    t.mode.mode = .allStop ∧ t.mode.normalPending = false ∧
      ([0, 1, 2, 3] : List GroupNo).map (fun g => ((t.group g).state, (t.group g).elapsed)) =
        [(.clearing, 0), (.clearing, 0), (.stop, 0), (.stop, 0)] := by decide +kernel

/-- Chapter 4, the REFUSED record of access 3. -/
theorem test_refused_detail_of_access_3 :
    (after (.servedWrite 3 2 ⟨0x40, both, 2⟩) (desk .normal .stop)).queue.held = [⟨.refused, 599, 3, 0x1802, 0⟩] := by decide +kernel

/-- Chapter 5, the state before step 4 with G raised to 20. -/
def beforeStep4 : State :=
  let s := desk .normal .stop
  { s with
    store := { s.store with nv := { s.store.nv with active := { cabinet with timing := { cabinet.timing with groupCount := 20 } } } }
    page := { s.page with word0 := ⟨0x13, true, false⟩, word1 := ⟨1, true, false⟩, word8 := ⟨1, true, false⟩ } }

theorem test_toggle_alias_step_4 : (after (.toggleAlias 0 ⟨0x102, both, 1⟩) beforeStep4).page.word0.value = 0x111 := by decide +kernel
theorem test_set_alias_step_3 : (after (.setAlias 1 ⟨0xF1, ⟨true, false⟩, 1⟩) beforeStep4).page.word1.value = 1 := by decide +kernel
theorem test_refused_high_byte_step_8 :
    let t := after (.modeWordValueRefused ⟨0x300, ⟨false, true⟩, 1⟩) beforeStep4
    t.page.word8.value = 1 ∧ t.page.refusals = 1 := by decide +kernel
theorem test_base_read_step_9 :
    let t := after (.requestBaseRead 1 both 1 0x41) beforeStep4
    t.bus.readData = some 1 ∧ t.queue.held.map (fun r => (r.kind, r.subject, r.detail)) = [(.mirrorMismatch, 1, 0x41)] := by decide +kernel

/-- Chapter 7, detector 40 of the prescaled counting, before its 14th activation, the filter at its last sample. -/
def counting : State :=
  withDetector (desk .normal .stop) 40
    { Detector.atReset with kind := .count, prescale := 2, state := .free, accumulator := 3, total := 13 }

theorem test_prescale_lowered_below_the_accumulator :
    let t := after (.detCount 40 (1 <<< 40)) counting
    (t.detector 40).accumulator = 0 ∧ t.queue.held.map (fun r => (r.kind, r.subject, r.detail)) = [(.detCount, 40, 14)] := by decide +kernel

/-- The check of R137 over the digits 1 to 9: the polynomial's published check value. -/
theorem test_crc_of_the_nine_digits : crc [0x31, 0x32, 0x33, 0x34, 0x35, 0x36, 0x37, 0x38, 0x39] = 0x29B1 := by decide +kernel

/-- Chapter 10, the first request of the worked sequence: `C[2][4]` without `C[4][2]`. -/
def engineer : Tables :=
  { cabinet with
    timing := { cabinet.timing with groupCount := 5 }
    groups := cabinet.groups.set 4 ⟨2, true, false, 2, 40, 0, 30⟩
    conflict := ((cabinet.conflict.set 0 22).set 4 1).set 2 25
    intergreen := Vector.ofFn fun j => Vector.ofFn fun i =>
      if j = 0 ∧ i = 4 then 40 else if j = 4 ∧ i = 0 then 50 else if j = 2 ∧ i = 4 then 75 else if j = 4 ∧ i = 2 then 40
      else (cabinet.intergreen.get j).get i }

theorem test_first_request_finds_V04 : engineer.firstViolation = some (4, .conflict, 68) := by decide +kernel
theorem test_second_request_finds_V05 :
    ({ engineer with conflict := engineer.conflict.set 4 5 } : Tables).firstViolation = some (5, .intergreen, 68) := by decide +kernel
theorem witness_violation : Violates engineer 4 68 := ⟨2, 4, by decide +kernel⟩
theorem test_cabinet_is_valid : cabinet.firstViolation = none := by decide +kernel

/-! ### Witnesses: the step, resets, clock and lines -/

theorem witness_step_takes_the_front : ({ State.reset with pending := [.timeMark] } : State).pending = .timeMark :: [] := rfl

/-- The desk with one or both resets held. -/
def heldBy (powerOn external : Bool) : State := { desk .normal .stop with powerOnHeld := powerOn, externalHeld := external }

theorem witness_reset_end :
    ((heldBy true false).powerOnHeld = decide (ResetKind.powerOn = .powerOn) ∧
      (heldBy true false).externalHeld = decide (ResetKind.powerOn = .external)) ∧
    (heldBy true true).powerOnHeld = true ∧ (heldBy true true).externalHeld = true := by decide
theorem test_reset_end_of_the_cabinet :
    let t := after (.resetEnd .powerOn 5 false) (heldBy true false)
    t.mode.mode = .startFlash ∧ (t.group 3).state = .flashing ∧ (t.group 4).state = .unlit ∧ t.tap.strap = 5 := by decide +kernel
/-- The desk with chapter 4's straps and a SERVICE counter of 10. -/
def inService : State :=
  let s := { desk .normal .stop with tap := ⟨5, 0b11001101011001⟩ }
  { s with store := { s.store with nv := { s.store.nv with service := 10 } } }

/-- A write of 5 to the SERVICE word, one of FFFFh to base word 0 of the request page, and a read of the low clock word. -/
def serviceAccess : Access := ⟨false, true, 0x50C05, both, 0, 5, 0⟩
def maskAccess : Access := ⟨false, true, 0x50000, both, 1, 0xFFFF, 0⟩
def clockAccess : Access := ⟨true, false, 0x502A0, both, 3, 0, 0xABCD⟩

theorem witness_reset_asserted :
    exec (.passedAccess serviceAccess) inService = .next (after (.passedAccess serviceAccess) inService) ∧
    (after (.passedAccess maskAccess) inService).bus.cycle = some ⟨true, 0x50000, both, 0xF⟩ ∧
    (after (.passedAccess serviceAccess) inService).bus.cycle = none ∧ clockAccess.writeStrobe = false ∧
    ((heldBy false true).held = true ∧ writeOf (.stagingWrite 731 (wr 5)) = some (10, 219, wr 5) ∧
      writeOf (.lockFreeze (wr 1)) = some (12, 1, wr 0x8001) ∧ readOf (.take ⟨.b, 2⟩ both 0 7) = some (5, 3, both, 7)) :=
  ⟨rfl, by decide +kernel⟩
theorem test_reset_during_a_service_write :
    let t := after (.resetAsserted ⟨.external, some ⟨serviceAccess, true⟩⟩) inService
    t.store.nv.service = 15 ∧ t.bus.cycle = some ⟨true, 0x50C05, both, 5⟩ ∧ t.held = true ∧
      (after (.resetAsserted ⟨.external, some ⟨serviceAccess, false⟩⟩) inService).store.nv.service = 10 := by decide +kernel
theorem test_reset_during_a_mirrored_write_and_a_served_read :
    (after (.resetAsserted ⟨.powerOn, some ⟨maskAccess, true⟩⟩) inService).bus = ⟨none, some ⟨true, 0x50000, both, 0xF⟩⟩ ∧
    (after (.resetAsserted ⟨.powerOn, some ⟨maskAccess, false⟩⟩) inService).bus = ⟨none, some ⟨true, 0x50000, both, 0xFFFF⟩⟩ ∧
    (after (.resetAsserted ⟨.powerOn, some ⟨clockAccess, true⟩⟩) inService).bus.readData = some 0xABCD := by decide +kernel
theorem test_staging_write_under_reset :
    let t := after (.stagingWrite 724 (wr 5)) (heldBy false true)
    t.bus = ⟨none, some ⟨true, 0xAD4, both, 5⟩⟩ ∧ t.store.staging.timing.groupCount = 4 := by decide +kernel

theorem witness_decisecond_event : (desk .normal .stop).held = false ∧ (heldBy false true).held = true := by decide

/-- The cabinet in flash at a clock value. -/
def flashingAt (clock : BitVec 32) : State := { desk .flash .flashing with clock := clock }

theorem witness_flasher :
    (flashingAt 0).clock = 0 ∧ (flashingAt 4294967295).clock = 4294967295 ∧ (flashingAt 4).drive 0 .clear = .flashing ∧
      (flashingAt 4).lineOn 0 .clear = true ∧ (flashingAt 5).lineOn 0 .clear = false := by decide +kernel
theorem witness_lamp_lines :
    (heldBy true false).held = true ∧ (desk .normal .stop).configured 4 = false ∧
    ((desk .normal .go).held = false ∧ (desk .normal .go).configured 3 = true) ∧
    (desk .normal .clearing).drive 2 .stop = .off ∧ (desk .normal .clearing).drive 2 .go = .flashing ∧
    (desk .normal .clearing).drive 3 .clear = .steady := by decide +kernel

/-! ### Witnesses: the group sequencer -/

/-- The cabinet in NORMAL at the last advance before each timer's end: g0 PREPARE 18 of 20, g1 GO at MG less 2 with a stop held, g2
CLEARING 78 of 80, g3 in STOP and pending. -/
def shortOfEnds : State :=
  let s := desk .normal .stop
  let s := { s with page := { s.page with word0 := ⟨8, true, false⟩ } }
  let s := withGroup s 0 ⟨.prepare, 18, 0, 0, false, false, 400, 0⟩
  let s := withGroup s 1 ⟨.go, 0, 68, 0, false, true, 400, 0⟩
  withGroup s 2 ⟨.clearing, 0, 0, 78, false, false, 78, 0⟩

theorem witness_sequencer_step :
    State.reset.parts.sequencer = false ∧ shortOfEnds.parts.sequencer = true ∧ shortOfEnds.configured 4 = false ∧
    (shortOfEnds.configured 0 = true ∧ shortOfEnds.parts.heldTimers.getLsbD 0 = false ∧
      (shortOfEnds.group 0).prepareTimer + 1 < shortOfEnds.prepareTime 0) ∧
    min ((shortOfEnds.group 1).goTimer + 1) 65535 < shortOfEnds.minimumGo 1 ∧
    (shortOfEnds.group 2).clearingTimer + 1 < shortOfEnds.clearingTime 2 ∧ shortOfEnds.isPending 3 = true ∧
    ({ EventParts.due with heldTimers := 1 } : EventParts).heldTimers.getLsbD 0 = true := by decide +kernel

/-- The same cabinet with each timer at its last value before its end. -/
def atEnds : State :=
  let s := withGroup shortOfEnds 0 ⟨.prepare, 19, 0, 0, false, false, 400, 0⟩
  let s := withGroup s 1 ⟨.go, 0, 69, 0, false, true, 400, 0⟩
  withGroup s 2 ⟨.clearing, 0, 0, 79, false, false, 79, 0⟩

/-- The same cabinet with H0 asserted, which masks g0. -/
def atEndsHeld : State := withMode atEnds fun m => { m with h0 := ⟨true, false⟩ }

theorem witness_sequencer_expiries :
    (atEnds.parts.sequencer = true ∧ atEnds.parts.heldTimers = 0 ∧ atEnds.parts.heldElapsed = 0) ∧
    (atEnds.configured 0 = true ∧ (atEnds.group 0).state = .prepare ∧ atEnds.prepareTime 0 ≤ (atEnds.group 0).prepareTimer + 1 ∧
      atEnds.heldByLine 0 = false) ∧
    (atEndsHeld.holdsAct = true ∧ atEndsHeld.heldByLine 0 = true) ∧
    ((atEnds.group 1).state = .go ∧ (atEnds.group 1).heldStop = true ∧
      atEnds.minimumGo 1 ≤ min ((atEnds.group 1).goTimer + 1) 65535) ∧
    (atEnds.group 2).state = .clearing ∧ atEnds.clearingTime 2 ≤ (atEnds.group 2).clearingTimer + 1 := by decide +kernel
/-- ALL_STOP with the last group to enter STOP one advance short of it, the all-stop timer not yet started. -/
def lastClearing : State := withGroup (desk .allStop .stop) 2 ⟨.clearing, 0, 0, 79, false, false, 79, 0⟩

theorem witness_last_entry_to_stop :
    (lastClearing.mode.mode = .allStop ∧ lastClearing.mode.running = false ∧
      ∀ j, j ≠ 2 → lastClearing.configured j = true → (lastClearing.group j).state = .stop) ∧
    (let s := withGroup lastClearing 0 ⟨.clearing, 0, 0, 5, false, false, 5, 0⟩
     s.configured 0 = true ∧ ((after (.clearingExpiry 2) s).group 0).state ≠ .stop) ∧
    lastEntersStop lastClearing (after (.clearingExpiry 2) lastClearing) = true := by decide +kernel
theorem test_last_entry_to_stop_starts_the_timer :
    (after (.clearingExpiry 2) lastClearing).mode.running = true ∧ (after (.clearingExpiry 2) lastClearing).parts.heldModeTimer = true := by
  decide +kernel
theorem test_prepare_expiry : ((after (.prepareExpiry 0) atEnds).group 0).state = .go ∧
    ((after (.prepareExpiry 0) atEndsHeld).group 0).state = .clearing := by decide +kernel
theorem test_held_stop_at_MG : ((after (.goTimerReachesMg 1) atEnds).group 1).state = .clearing := by decide +kernel
theorem test_clearing_expiry : (after (.clearingExpiry 2) atEnds).group 2 = ⟨.stop, 0, 0, 0, false, false, 80, 0⟩ := by decide +kernel

/-! ### Witnesses: the release arbiter -/

theorem witness_wait :
    (tie.inConflict 0 1 = true ∧ (desk .normal .go).inConflict 0 1 = true ∧ ((desk .normal .go).group 0).state.active = true) ∧
    (∀ j, tie.inConflict j 1 = true → (tie.group j).state.active = false) ∧ tie.inConflict 0 3 = false := by decide +kernel
theorem witness_evaluation :
    (tie.parts.arbiter = true ∧ waitOf tie 3 ≤ tie.prepareTime 3 ∧ releasable tie 1 = true) ∧
    tie.configured 4 = false ∧ (desk .flash .flashing).parts.arbiter = true ∧ (reported (desk .flash .flashing)).releasable = 0 := by
  decide +kernel

/-- Chapter 2, T+38: g1 in GO, g0 60 ds past its green; g2, whose P is 0, is granted. -/
def instantT38 : State :=
  let s := withGroup instantT 0 ⟨.stop, 0, 0, 0, false, false, 60, 0⟩
  let s := withGroup s 1 ⟨.go, 0, 10, 0, false, false, 438, 0⟩
  withGroup s 2 ⟨.stop, 0, 0, 0, false, false, 538, 48⟩

theorem witness_grants :
    (tie.parts.arbiter = true ∧ tie.parts.sequencer = true ∧ grantedGroups tie = [3] ∧ 0 < tie.prepareTime 3) ∧
    instantT38.parts.arbiter = true ∧ grantedGroups instantT38 = [2] ∧ instantT38.prepareTime 2 = 0 ∧
      (instantT38.group 2).lateCancel = false := by decide +kernel
theorem test_waits_at_T38 :
    let t := after .evaluation instantT38
    (t.group 2).state = .go ∧ ([0, 1, 2, 3] : List GroupNo).map (fun g => t.arbiter.waits.get g) = [65535, 0, 0, 65535] := by decide +kernel

/-! ### Witnesses: the mode controller -/

/-- The cabinet in a mode whose timers stand at a value and run. -/
def timed (m : Mode) (st : GroupState) (n : Nat) : State :=
  let s := desk m st
  { s with
    mode := { s.mode with running := true, startFlashTimer := n, allStopTimer := n, flashEntryTimer := n }
    page := { s.page with liveness := n } }

/-- A timed mode whose mode timer and liveness timer, at 19, were started within the present event. -/
def startedNow (m : Mode) (st : GroupState) (n : Nat) : State :=
  let s := timed m st n
  { s with page := { s.page with liveness := 19 }, parts := { s.parts with heldModeTimer := true, heldLiveness := true } }

theorem witness_mode_controller_step :
    ((timed .startFlash .flashing 48).parts = EventParts.due ∧ (timed .startFlash .flashing 48).mode.h0.level = false) ∧
    (timed .startFlash .flashing 48).mode.startFlashTimer + 1 < (timed .startFlash .flashing 48).active.timing.startFlash.toNat ∧
    State.reset.mode.startFlashTimer + 1 < 100 ∧
    ((timed .allStop .stop 18).mode.allStopTimer + 1 < (timed .allStop .stop 18).active.timing.allStop.toNat ∧
      (timed .allStop .stop 18).page.liveness + 1 < (timed .allStop .stop 18).active.timing.liveness.toNat) ∧
    (timed .normal .stop 18).page.liveness + 1 < (timed .normal .stop 18).active.timing.liveness.toNat ∧
    (timed .toFlash .stop 38).mode.flashEntryTimer + 1 < (timed .toFlash .stop 38).active.timing.flashEntry.toNat ∧
    (timed .dark .unlit 0).mode.mode = .dark ∧
    ((desk .allStop .clearing).mode.running = false ∧ (desk .allStop .clearing).page.liveness + 1 < 20 ∧
      (desk .toFlash .clearing).mode.running = false) ∧
    ((desk .normal .stop).mode.h1.differed = false ∧ true ≠ (desk .normal .stop).mode.h1.level) ∧
    ((startedNow .toFlash .stop 39).mode.running = true ∧ (startedNow .toFlash .stop 39).parts.heldModeTimer = true ∧
      (startedNow .allStop .stop 29).parts.heldLiveness = true) := by decide +kernel
/-- A part of the event already taken, and an expiry or an edge of each part that is due: the two kinds of clause of the step. -/
theorem witness_mode_controller_step_parts :
    (exec .startFlashExpiry clock50 = .next (after .startFlashExpiry clock50) ∧ (after .startFlashExpiry clock50).mode.mode = .allStop) ∧
    (exec .livenessExpiry (timed .normal .go 19) = .next (after .livenessExpiry (timed .normal .go 19)) ∧
      (timed .normal .go 19).mode.mode = .normal ∧ (after .livenessExpiry (timed .normal .go 19)).mode.mode = .toFlash) ∧
    (exec (.hold 1 true) (desk .normal .go) = .next (after (.hold 1 true) (desk .normal .go)) ∧
      (desk .normal .go).page.liveness + 1 < (desk .normal .go).active.timing.liveness.toNat ∧ (desk .normal .go).mode.running = false) :=
  ⟨⟨rfl, by decide +kernel⟩, ⟨rfl, by decide +kernel⟩, rfl, by decide +kernel⟩
theorem test_step_with_a_part_taken :
    let s := timed .allStop .stop 18
    let t := after (.modeControllerStep true false false) { s with parts := { s.parts with liveness := false, hold0 := false } }
    t.page.liveness = 18 ∧ t.mode.allStopTimer = 19 ∧ t.mode.h0 = ⟨false, false⟩ := by decide +kernel
/-- R47: timers started within this event stand, at their limits less 1, and what held them back ends with the step. -/
theorem test_timers_started_now_are_held_back :
    let t := after (.modeControllerStep false false false) (startedNow .allStop .stop 29)
    t.mode.mode = .allStop ∧ t.mode.allStopTimer = 29 ∧ t.page.liveness = 19 ∧ t.parts.heldModeTimer = false ∧
      t.parts.heldLiveness = false := by decide +kernel
theorem test_first_sample_of_a_new_level :
    let t := after (.modeControllerStep false true false) (desk .toFlash .clearing)
    t.mode.h1 = ⟨false, true⟩ ∧ t.mode.flashEntryTimer = 0 ∧ t.queue.held = [] := by decide +kernel
theorem test_mode_controller_step_advances :
    (after (.modeControllerStep false false false) (timed .allStop .stop 18)).mode.allStopTimer = 19 := by decide +kernel

/-- Clock 50 with no normal-pending, and on an UNCONFIGURED device at its limit of 100 ds. -/
def clock50Plain : State := withMode clock50 fun m => { m with normalPending := false }

/-- The UNCONFIGURED device at its start-flash limit, its event due. -/
def unconfigured100 : State :=
  let s := { State.reset with parts := EventParts.due }
  withMode s fun m => { m with startFlashTimer := 99, normalPending := true }

theorem witness_start_flash_expiry :
    (clock50.parts.modeTimer = true ∧ clock50.parts.heldModeTimer = false ∧ clock50.mode.running = true ∧
      clock50.mode.mode = .startFlash ∧ clock50.active.timing.startFlash.toNat ≤ clock50.mode.startFlashTimer + 1) ∧
    (clock50.mode.normalPending = true ∧ clock50.store.nv.valid = true ∧ clock50.store.busy = false) ∧
    clock50Plain.mode.normalPending = false ∧
    (unconfigured100.mode.running = true ∧ unconfigured100.store.nv.valid = false ∧ 100 ≤ unconfigured100.mode.startFlashTimer + 1) := by
  decide +kernel
theorem test_unconfigured_start_flash_ends_in_flash :
    (after .startFlashExpiry unconfigured100).mode.mode = .flash ∧ (after .startFlashExpiry unconfigured100).mode.cause = .reset := by
  decide +kernel
theorem witness_all_stop_and_flash_entry :
    (let s := timed .allStop .stop 29
     s.parts.modeTimer = true ∧ s.mode.running = true ∧ s.active.timing.allStop.toNat ≤ s.mode.allStopTimer + 1 ∧
       ∀ g, s.configured g = true → (s.group g).state.active = false) ∧
    (let s := timed .toFlash .stop 39
     s.parts.heldModeTimer = false ∧ s.mode.running = true ∧ s.active.timing.flashEntry.toNat ≤ s.mode.flashEntryTimer + 1) := by
  decide +kernel
theorem test_all_stop_expiry : (after .allStopExpiry (timed .allStop .stop 29)).mode.mode = .normal := by decide +kernel
theorem test_flash_entry_timer_expiry :
    let t := after .flashEntryTimerExpiry (withGroup (timed .toFlash .stop 39) 3 ⟨.go, 0, 9, 0, false, true, 77, 0⟩)
    t.mode.mode = .flash ∧ t.group 3 = ⟨.flashing, 0, 0, 0, false, false, 77, 0⟩ := by decide +kernel
theorem witness_liveness_expiry :
    (let s := timed .normal .go 19
     s.parts.liveness = true ∧ s.parts.heldLiveness = false ∧ s.mode.mode = .normal ∧
       s.active.timing.liveness.toNat ≤ s.page.liveness + 1) ∧
    (timed .allStop .stop 19).mode.mode = .allStop := by decide +kernel
theorem test_liveness_expiry :
    let t := after .livenessExpiry (timed .allStop .stop 19)
    t.mode.mode = .toFlash ∧ t.mode.cause = .liveness ∧ t.store.nv.livenessLosses = 1 := by decide +kernel

/-- Chapter 3, the gate at t = 2: H0's second sample of its new level, g0 in GO. -/
def gate : State := withMode (desk .normal .go) fun m => { m with h0 := ⟨false, true⟩, h1 := ⟨true, true⟩ }

/-- The cabinet in DARK with the switch's second sample of its new level to come. -/
def key (closed : Bool) : State := withMode (desk .dark .unlit) fun m => { m with switch := ⟨closed, true⟩ }

theorem witness_filtered_edges :
    (gate.parts.hold0 = true ∧ gate.mode.h0 = ⟨!true, true⟩ ∧ gate.configured 0 = true ∧ (gate.active.holds.get 0).getLsbD 0 = true) ∧
    (gate.parts.hold1 = true ∧ gate.mode.h1 = ⟨!false, true⟩) ∧
    ((key true).parts.switch = true ∧ (key true).mode.switch = ⟨!false, true⟩ ∧ (key true).mode.mode = .dark) ∧
    (key false).mode.switch = ⟨!true, true⟩ := by decide +kernel
theorem test_hold_truncates :
    ((after (.hold 0 true) gate).group 0).state = .clearing ∧ ((after (.hold 0 true) gate).group 1).state = .clearing ∧
      ((after (.hold 0 true) gate).group 3).state = .go := by decide +kernel
theorem test_switch_opening_ends_dark :
    let t := after (.commissioningSwitchChange false) (key true)
    t.mode.mode = .flash ∧ t.mode.cause = .switch ∧ t.group 0 = ⟨.flashing, 0, 0, 0, false, false, 400, 0⟩ := by decide +kernel

/-- The edge of the switch is taken in the step, after the parts before it. -/
theorem test_step_in_which_an_edge_falls :
    let t := after (.modeControllerStep false false false) (key true)
    let u := after (.modeControllerStep false false false) (after (.commissioningSwitchChange false) (key true))
    t.mode.cause = .switch ∧ t.mode = u.mode ∧ t.groups = u.groups ∧ t.parts = u.parts := by decide +kernel

/-- TO_FLASH with g2 asked for and past MG, and g1 and g3 in GO with no request, H1 asserted over g1. -/
def flashEve : State :=
  let s := withMode (desk .toFlash .go) fun m => { m with h1 := ⟨true, false⟩ }
  let s := { s with page := { s.page with word0 := ⟨4, true, false⟩ } }
  withGroup s 2 ⟨.go, 0, 60, 0, false, false, 400, 0⟩

/-- R8: "Where one event changes several groups, the group sequencer submits their GROUP_STATE records in ascending group number." -/
theorem test_to_flash_records_ascend :
    (forGroups toFlashTurn flashEve).queue.held.map (fun r => (r.kind, r.subject)) = [(.groupState, 1), (.groupState, 2)] := by
  decide +kernel
theorem test_move_records :
    moveRecords flashEve (forGroups toFlashTurn flashEve) =
      [(.groupState, 599, 1, groupDetail .clearing .go), (.groupState, 599, 2, groupDetail .clearing .go)] := by decide +kernel

/-! ### Witnesses: the request page -/

/-- The desk with the refusal count one below the limit. -/
def atLimit (m : Mode) (st : GroupState) : State :=
  let s := desk m st
  { s with page := { s.page with refusals := 7 } }

/-- The UNCONFIGURED device in FLASH. -/
def unconfiguredFlash : State := withMode State.reset fun m => { m with mode := .flash }

theorem witness_refused_request_writes :
    (requestWriteOf (.clearAlias 1 ⟨0, ⟨false, true⟩, 2⟩) = some (5, ⟨0, ⟨false, true⟩, 2⟩) ∧
      requestWriteOf (.modeWordDark both 3) = some (8, ⟨2, both, 3⟩) ∧
      (requiredLevel (desk .normal .stop).tap.levelMap .request).toNat < (2 : Level).toNat ∧ belowRefusalLimit (desk .normal .stop)) ∧
    (Taken (desk .normal .stop) (requiredLevel (desk .normal .stop).tap.levelMap .request) ⟨3, both, 1⟩ ∧
      mergeBytes (desk .normal .stop).page.word8.value 3 both = 3) ∧
    (belowRefusalLimit unconfiguredFlash ∧ unconfiguredFlash.store.nv.valid = false ∧
      mergeBytes unconfiguredFlash.page.word8.value 1 both = 1) ∧
    (belowRefusalLimit (desk .toFlash .stop) ∧ (desk .toFlash .stop).mode.mode = .toFlash) ∧
    (mergeBytes (desk .normal .stop).page.word8.value 2 both = 2 ∧ (desk .normal .stop).mode.mode = .normal) ∧
    (desk .flash .flashing).mode.switch.level = false ∧ belowRefusalLimit (desk .flash .flashing) := by
  unfold belowRefusalLimit Taken; decide +kernel
theorem test_unconfigured_refuses_normal :
    (after (.modeWordNormal both 0) unconfiguredFlash).queue.held.map (·.detail) = [0x6008] := by decide +kernel
theorem witness_refusal_limit :
    (let s := atLimit .normal .go
     s.held = false ∧ both.any = true ∧ s.mode.mode = .normal ∧ s.active.timing.refusalLimit ≠ 0 ∧
       s.active.timing.refusalLimit.toNat ≤ min (s.page.refusals + 1) 1023 ∧
       (requiredLevel s.tap.levelMap .request).toNat < (2 : Level).toNat ∧
       ¬(requiredLevel s.tap.levelMap .request).toNat < (1 : Level).toNat) ∧
    (atLimit .allStop .stop).mode.mode = .allStop ∧ mergeBytes (atLimit .normal .go).page.word8.value 2 both = 2 := by decide +kernel
theorem test_refusal_limit_reached :
    let t := after (.refusalLimitReached 8 ⟨2, both, 1⟩) (atLimit .normal .go)
    t.mode.mode = .toFlash ∧ t.mode.cause = .refusals ∧ t.page.refusals = 0 := by decide +kernel
theorem test_mode_refusal_detail :
    (after (.modeWordDark both 1) (desk .normal .go)).queue.held = [⟨.refused, 599, 0, 0x4408, 0⟩] := by decide +kernel

/-- The cabinet in FLASH with the switch closed. -/
def keyedFlash : State := withMode (desk .flash .flashing) fun m => { m with switch := ⟨true, false⟩ }

/-- A commit in progress in FLASH. -/
def committing : State := { keyedFlash with store := { keyedFlash.store with staging := cabinet, busy := true } }

theorem witness_accepted_mode_words :
    Taken (desk .flash .flashing) (requiredLevel (desk .flash .flashing).tap.levelMap .request) ⟨1, both, 1⟩ ∧
    modeWordWriteOf (.modeWordNormal both 1) = some ⟨1, both, 1⟩ ∧
    (mergeBytes (desk .startFlash .flashing).page.word8.value 0 both = 0 ∧ (desk .startFlash .flashing).store.nv.valid = true) ∧
    ((desk .toFlash .stop).mode.mode = .toFlash ∧ (desk .faultFlash .flashing).mode.mode = .faultFlash ∧
      (desk .allStop .stop).mode.mode = .allStop ∧ (desk .dark .unlit).mode.mode = .dark) ∧
    (committing.mode.mode = .flash ∧ committing.store.busy = true ∧ committing.store.nv.valid = true) ∧
    (desk .flash .flashing).store.busy = false ∧ keyedFlash.mode.switch.level = true ∧
      mergeBytes keyedFlash.page.word8.value 2 both = 2 := by unfold Taken; decide +kernel
theorem test_mode_word_dark : ((after (.modeWordDark both 0) keyedFlash).group 0).state = .unlit := by decide +kernel
theorem test_mode_word_flash_in_normal :
    let t := after (.modeWordFlash both 0) { desk .normal .stop with page := { (desk .normal .stop).page with word8 := ⟨1, true, false⟩ } }
    t.mode.mode = .toFlash ∧ t.mode.cause = .software := by decide +kernel

/-- The cabinet with the request of every group set: g0 PREPARE, g1 GO before MG, g2 GO at MG, g3 STOP. -/
def requestsSet : State :=
  let s := desk .normal .stop
  let s := { s with page := { s.page with word0 := ⟨15, true, false⟩ } }
  let s := withGroup s 0 ⟨.prepare, 5, 0, 0, false, false, 400, 0⟩
  let s := withGroup s 1 ⟨.go, 0, 69, 0, false, false, 400, 0⟩
  withGroup s 2 ⟨.go, 0, 60, 0, false, false, 400, 0⟩

theorem witness_mask_writes :
    (maskWriteOf (.goMaskWrite 0 ⟨0, both, 1⟩) = some (0, ⟨0, both, 1⟩) ∧ maskWriteOf (.toggleAlias 1 (wr 1)) = some (7, wr 1)) ∧
    Taken requestsSet (requiredLevel requestsSet.tap.levelMap .request) ⟨0, both, 1⟩ ∧
    (requestsSet.goMask.getLsbD 0 = true ∧ (after (.goMaskWrite 0 ⟨0, both, 1⟩) requestsSet).goMask.getLsbD 0 = false) ∧
    ((requestsSet.group 1).goTimer < requestsSet.minimumGo 1 ∧ requestsSet.minimumGo 2 ≤ (requestsSet.group 2).goTimer) ∧
    requestsSet.queue.held.length ≤ 64 ∧
    ((desk .normal .stop).goMask.getLsbD 3 = false ∧ (after (.setAlias 0 (wr 8)) (desk .normal .stop)).goMask.getLsbD 3 = true) ∧
    (desk .toFlash .stop).mode.mode = .toFlash := by unfold Taken; decide +kernel
theorem test_mask_write_request_records :
    (after (.goMaskWrite 0 (wr 0)) requestsSet).queue.requestRecords = [(.lateCancel, 599, 0, 15), (.stopHeld, 599, 1, 1)] := by
  decide +kernel
theorem test_requests_cleared :
    let t := after (.clearAlias 0 (wr 15)) requestsSet
    (t.group 0).lateCancel = true ∧ (t.group 1).heldStop = true ∧ (t.group 2).state = .clearing ∧
      t.queue.held.map (fun r => (r.kind, r.subject, r.detail)) = [(.lateCancel, 0, 15), (.stopHeld, 1, 1), (.groupState, 2, 0x405)] := by
  decide +kernel
theorem witness_request_page_reads :
    beforeStep4.held = false ∧ (1 : Level).toNat ≤ (requiredLevel beforeStep4.tap.levelMap .request).toNat ∧
    ¬(2 : Level).toNat ≤ (requiredLevel beforeStep4.tap.levelMap .request).toNat ∧
    (beforeStep4.page.word1.written = true ∧ (0x41 : Word) ≠ beforeStep4.page.word1.value ∧ beforeStep4.page.word1.mismatch = false) ∧
    (desk .normal .stop).page.word8.written = false ∧
    (after (.requestBaseRead 1 both 1 0x41) beforeStep4).page.word1.mismatch = true := by decide +kernel

/-! ### Witnesses: the lamp monitor -/

/-- The cabinet with the GO senses of g0 and g1 on in the last two samples, both GO lines commanded in those intervals, and the runs of the
pair 0–1, of g0's uncommanded GO and of the STOP lines of g0 and g3 at 2; PD is 3. -/
def welded (m : Mode) (st : GroupState) : State :=
  let s := desk m st
  { s with lamps := { s.lamps with
      samples := List.replicate 2 ⟨0, 0, 3⟩
      goIntervals := List.replicate 2 3
      conflictRuns := s.lamps.conflictRuns.set 0 ((s.lamps.conflictRuns.get 0).set 1 ⟨2, false⟩)
      uncommandedRuns := s.lamps.uncommandedRuns.set 0 ⟨2, false⟩
      stopOutRuns := ((s.lamps.stopOutRuns.set 0 ⟨2, false⟩).set 3 ⟨2, false⟩) } }

/-- The senses of the third sample: the GO senses of g0 and g1 on, every STOP sense but g0's on. -/
def third : SenseSample := ⟨0xFFFFFFFE, 0, 3⟩

/-- The same with no sense on at all, and none before. -/
def darkSenses (m : Mode) (st : GroupState) : State :=
  let s := welded m st
  { s with lamps := { s.lamps with samples := [] } }

/-- The same with the GO sense of g0 alone on, and no GO line commanded. -/
def uncommandedAt (m : Mode) (st : GroupState) : State :=
  let s := welded m st
  { s with lamps := { s.lamps with samples := List.replicate 2 ⟨0, 0, 1⟩, goIntervals := [] } }

theorem witness_lamp_sample : State.reset.parts.lamps = false ∧ (welded .normal .stop).parts.lamps = true := by decide
theorem witness_lamp_runs :
    (welded .normal .stop).parts.lamps = true ∧ conflictFound (reading third (welded .normal .stop)) 0 1 = true ∧
    provingDelay (welded .normal .stop) = 3 ∧ proved (welded .normal .stop) 4 = false ∧
    lampOutFound (reading ⟨0, 0, 0⟩ (darkSenses .normal .stop)) 0 .stop = true := by decide +kernel
/-- The pair 0–1 lit with no GO line commanded: three declarations of one sample, of which FAULT_FLASH leaves two. -/
def thrice (m : Mode) (st : GroupState) : State :=
  let s := welded m st
  { s with lamps := { s.lamps with goIntervals := [] } }

theorem witness_declarations :
    ((welded .normal .stop).parts.lamps = true ∧ (welded .normal .stop).mode.mode ≠ .faultFlash ∧
      declarations (reading third (welded .normal .stop)) = [(.conflict, 0, 1), (.redOut, 0, 0xFF)]) ∧
    declarations (reading third (thrice .normal .stop)) = [(.conflict, 0, 1), (.uncommandedGo, 0, 0xFF), (.redOut, 0, 0xFF)] ∧
    declarations (reading ⟨0xFFFFFFFF, 0, 1⟩ (uncommandedAt .normal .stop)) = [(.uncommandedGo, 0, 0xFF)] ∧
    declarations (reading ⟨0, 0, 0⟩ (darkSenses .normal .stop)) = [(.redOut, 0, 0xFF)] ∧
    declarations (reading ⟨0xFFFFFFFF, 0, 0⟩ (desk .normal .stop)) = [] ∧
    (declarations (reading third (thrice .faultFlash .flashing)) = [(.conflict, 0, 1), (.uncommandedGo, 0, 0xFF)] ∧
      (thrice .faultFlash .flashing).mode.mode = .faultFlash ∧ (thrice .faultFlash .flashing).queue.held.length + 2 ≤ 128) ∧
    (thrice .normal .stop).queue.held.length + (lampReports (reading third (thrice .normal .stop))).length + 33 + 3 ≤ 128 := by
  decide +kernel
theorem witness_declaring_commands :
    (let s := welded .normal .stop
     s.active.conflictBit 0 1 = true ∧ ((s.lamps.conflictRuns.get 0).get 1).mark = false ∧
       s.active.timing.provingDelay.toNat ≤ min (((s.lamps.conflictRuns.get 0).get 1).count + 1) 255 ∧
       third ∈ (third :: s.lamps.samples).take 6 ∧ (senseLine third .go).getLsbD 0 = true ∧ (senseLine third .go).getLsbD 1 = true) ∧
    (let s := uncommandedAt .normal .stop
     ((s.lamps.goMark :: s.lamps.goIntervals).take 6).all (fun m => !m.getLsbD 0) = true) ∧
    (let s := darkSenses .normal .stop
     s.mode.mode = .normal ∧ s.drive 0 .stop = .steady ∧ (s.record 0).redundant = false ∧
       ∀ y ∈ ((⟨0, 0, 0⟩ : SenseSample) :: s.lamps.samples).take 6, (senseLine y .stop).getLsbD 0 = false) := by decide +kernel
theorem test_three_declarations_of_one_sample :
    (after (.lampSample third) (thrice .normal .stop)).store.nv.lastFault = ⟨some .conflict, 0, 1, 599, .normal⟩ ∧
    (after (.uncommandedGo 0 third) (thrice .faultFlash .flashing)).queue.held.map (fun r => (r.kind, r.subject, r.detail)) =
      [(.fault, 0, 0x8101), (.fault, 0, 0x82FF)] := by decide +kernel
theorem test_conflict_enters_fault_flash :
    let t := after (.conflict 0 1 third) (welded .normal .stop)
    t.mode.mode = .faultFlash ∧ t.store.nv.lastFault = ⟨some .conflict, 0, 1, 599, .normal⟩ ∧ t.store.nv.faultEntries = 1 := by
  decide +kernel
/-- R111: the fault entry of the sample turns g0's GO line off, so that the next interval has no mark of it. -/
theorem test_fault_entry_opens_an_unmarked_interval :
    let s := withGroup (welded .normal .stop) 0 ⟨.go, 0, 9, 0, false, false, 400, 0⟩
    let t := after (.lampSample third) s
    s.goLinesOn = 1 ∧ t.mode.mode = .faultFlash ∧ t.lamps.goMark = 0 ∧ t.lamps.goIntervals.head? = some s.lamps.goMark := by
  decide +kernel
theorem test_uncommanded_go :
    (after (.uncommandedGo 0 ⟨0xFFFFFFFF, 0, 1⟩) (uncommandedAt .flash .flashing)).mode.mode = .faultFlash := by decide +kernel
theorem test_red_out : (after (.redOut 0 ⟨0, 0, 0⟩) (darkSenses .allStop .stop)).store.nv.lastFault.cause = some .redOut := by
  decide +kernel
theorem witness_lamp_fail :
    (let s := darkSenses .normal .stop
     s.parts.lamps = true ∧ (s.configured 3 = true ∧ (s.record 3).proving = true ∧ s.drive 3 .stop = .steady ∧
       (∀ y ∈ ((⟨0, 0, 0⟩ : SenseSample) :: s.lamps.samples).take 6, (senseLine y .stop).getLsbD 3 = false) ∧
       s.active.timing.provingDelay.toNat ≤ min ((s.lamps.stopOutRuns.get 3).count + 1) 255 ∧
       (s.record 3).redundant = true ∧ (s.lamps.failed .stop).getLsbD 3 = false ∧ s.queue.held.length ≤ 31)) ∧
    (let s := { darkSenses .normal .stop with lamps := { (darkSenses .normal .stop).lamps with stopFailed := 9 } }
     (s.lamps.failed .stop).getLsbD 3 = true ∧ (s.lamps.failed .stop).getLsbD 0 = true ∧ (s.record 0).redundant = false) := by
  decide +kernel
theorem test_lamp_fail_is_not_repeated :
    let s := { darkSenses .normal .stop with lamps := { (darkSenses .normal .stop).lamps with stopFailed := 8 } }
    (after (.lampSample ⟨0xFFFFFFF7, 0, 0⟩) s).queue.held = [] ∧ (after (.lampFail 3 .stop ⟨0xFFFFFFF7, 0, 0⟩) s).parts = s.parts := by
  decide +kernel
theorem test_lamp_fail_of_a_redundant_red :
    let t := after (.lampFail 3 .stop ⟨0xFFFFFFF7, 0, 0⟩) (darkSenses .normal .stop)
    t.mode.mode = .normal ∧ t.lamps.stopFailed = 8 ∧ t.queue.held.map (fun r => (r.kind, r.subject, r.detail)) = [(.lampFail, 3, 0x200)] := by
  decide +kernel

/-! ### Witnesses: the detector unit -/

/-- A detector of a kind that maps g0 and g3, with an on-filter of 50 ms and stuck limits of 2 min. -/
def loop (kind : DetectorKind) (st : DetectorState) : Detector :=
  { Detector.atReset with kind := kind, onFilter := 50, callMask := 9, stuckOn := 2, stuckOff := 2, state := st }

/-- Detector 12 of chapter 7's worked case. -/
def at12 (v : Detector) : State := withDetector (desk .normal .stop) 12 v

/-- The inputs with detector 12's alone active. -/
def loopOn : BitVec 48 := 1 <<< 12

theorem witness_detector_sample :
    ((heldBy false true).held = true ∧ (desk .normal .stop).held = false) ∧ (at12 (loop .off .disabled)).detector 12 = loop .off .disabled ∧
    (let v : Detector := { loop .presence .free with run := 49 }
     (at12 v).detector 12 = v ∧ v.kind ≠ .off ∧ loopOn.getLsbD 12 ≠ v.level ∧ v.run + 1 ≤ v.onFilter.toNat) ∧
    (let v : Detector := { loop .presence .free with run := 50 }
     (at12 v).detector 12 = v ∧ v.onFilter.toNat < v.run + 1) := by decide +kernel

/-- A detector one sample short of its activation. -/
def arriving (kind : DetectorKind) (st : DetectorState) : State := at12 { loop kind st with run := 50 }

theorem witness_activation :
    (let s := arriving .presence .free
     s.held = false ∧ (s.detector 12).kind ≠ .off ∧ (s.detector 12).level = false ∧ loopOn.getLsbD 12 = true ∧
       (s.detector 12).onFilter.toNat < (s.detector 12).run + 1 ∧ s.queue.held.length ≤ 32 ∧ s.configured 3 = true ∧
       (s.group 3).state ≠ .go ∧ (s.detector 12).callMask.getLsbD 3 = true) ∧
    ((arriving .pulse .faultedOff).detector 12).state = .faultedOff ∧
    ((arriving .presence .faultedOn).detector 12).state = .faultedOn ∧
    (let s := at12 { loop .count .free with run := 50, prescale := 5, accumulator := 3 }
     (s.detector 12).accumulator + 1 < (s.detector 12).prescale.toNat) ∧
    (let s := at12 { loop .count .free with run := 50, prescale := 5, accumulator := 4 }
     (s.detector 12).prescale.toNat ≤ (s.detector 12).accumulator + 1) := by decide +kernel
theorem test_activation_calls_the_group :
    let t := after (.activation 12 loopOn) (arriving .presence .free)
    t.detectors.calls = 9 ∧ (t.detector 12).state = .occupied ∧ t.queue.held.map (·.kind) = [.detOccupied] := by decide +kernel
/-- R128: the records of a second sample follow what was submitted before; the first may be at its moment. -/
theorem test_a_second_sample_is_at_its_own_moment :
    let s := { arriving .presence .free with queue := { (arriving .presence .free).queue with held := [⟨.mode, 0, 0xFF, 0, 0⟩], fresh := 1 } }
    (after (.detectorSample 0) s).queue.fresh = 1 ∧ (after (.detectorSample 0) (after (.detectorSample 0) s)).queue.fresh = 0 := by
  decide +kernel
theorem witness_second_sample :
    (after (.detectorSample 0) (arriving .presence .free)).queue.sampled = true ∧
    (after (.detectorSample 0) (arriving .presence .free)).held = false := by decide +kernel
theorem witness_deactivation :
    (let s := at12 { loop .presence .occupied with level := true, run := 0, occupancy := 201 }
     s.held = false ∧ (s.detector 12).kind ≠ .off ∧ (s.detector 12).level = true ∧ (0 : BitVec 48).getLsbD 12 = false ∧
       (s.detector 12).offFilter.toNat < (s.detector 12).run + 1 ∧ s.queue.held.length ≤ 32) ∧
    ((at12 { loop .presence .faultedOn with level := true }).detector 12).state = .faultedOn ∧
    ((at12 { loop .count .faultedOff with level := true }).detector 12).state = .faultedOff := by decide +kernel
theorem test_deactivation_reports_the_occupancy :
    (after (.deactivation 12 0) (at12 { loop .presence .occupied with level := true, occupancy := 201 })).queue.held.map
      (fun r => (r.kind, r.subject, r.detail)) = [(.detFree, 12, 201)] := by decide +kernel

/-- Detector 12 at an occupancy or a gap value. -/
def waiting (st : DetectorState) (n : Nat) : State := at12 { loop .presence st with occupancy := n, gap := n }

theorem witness_detector_step :
    State.reset.parts.detectors = false ∧ (desk .normal .stop).parts.detectors = true ∧
    (let v := (waiting .occupied 1199).detector 12
     v.state = .occupied ∧ v.stuckOn ≠ 0 ∧ ¬v.stuckOn.toNat * 600 + 1 ≤ min (v.occupancy + 1) 153001) ∧
    (let v := (waiting .occupied 1200).detector 12
     v.stuckOn.toNat * 600 + 1 ≤ min (v.occupancy + 1) 153001) ∧
    (let v := (waiting .free 1200).detector 12
     v.state = .free ∧ v.stuckOff ≠ 0 ∧ v.stuckOff.toNat * 600 + 1 ≤ min (v.gap + 1) 153001) := by decide +kernel
theorem test_stuck_on :
    let t := after (.stuckOn 12) (waiting .occupied 1200)
    (t.detector 12).state = .faultedOn ∧ t.detectors.calls = 9 ∧
      (after (.stuckOn 12) (waiting .occupied 1199)).detector 12 = (waiting .occupied 1199).detector 12 := by decide +kernel
theorem test_stuck_off : ((after (.stuckOff 12) (waiting .free 1200)).detector 12).state = .faultedOff := by decide +kernel

/-! ### Witnesses: the sign link -/

/-- Chapter 8's cabinet at a frame event, the cursor at an address. -/
def frames (first : Bool) (cursor : Byte) : State :=
  let s := desk .normal .stop
  { s with link := { s.link with firstFrame := first, cursor := cursor, sequence := 1 } }

theorem witness_frame_event :
    (State.reset.store.nv.valid = false ∧ State.reset.link.poll = none ∧
      ({ State.reset with parts := EventParts.due } : State).parts.signs = true) ∧
    (let s := frames true 0
     s.parts.signs = true ∧ s.link.poll = none ∧ s.store.nv.valid = true ∧ (s.active.signs.get 1).used = true ∧
       (s.active.signs.get 1).start.toNat + (s.active.signs.get 1).span.toNat = 12 ∧ s.link.firstFrame = true) ∧
    (let s := frames false 2
     s.link.cursor.toNat < (s.active.signs.get 1).address.toNat ∧ (s.active.signs.get 0).address.toNat ≤ s.link.cursor.toNat) ∧
    (let s := frames false 5
     ∀ q, (s.active.signs.get q).used = true → (s.active.signs.get q).address.toNat ≤ s.link.cursor.toNat ∧
       (s.active.signs.get 0).address.toNat ≤ (s.active.signs.get q).address.toNat) := by decide +kernel
theorem test_frame_event_polls_in_turn :
    (after .frameEvent (frames true 0)).link.line = [0xC3, 1, 0, 12] ∧ (after .frameEvent (frames false 0)).link.line = [0xC3, 1, 2, 12] ∧
    (after .frameEvent (frames false 2)).link.line = [0xC3, 1, 5, 12] ∧ (after .frameEvent (frames false 5)).link.cursor = 2 := by
  decide +kernel

/-- A frame in progress with its first four bytes and `n` channel bytes sent, image values all 7, record 0's poll in flight, and the parts
of its decisecond event taken. -/
def sending (n : Nat) (st : GroupState) : State :=
  let s := { desk .normal st with parts := EventParts.idle }
  { s with link := { s.link with
      image := Vector.replicate 128 7
      poll := some ⟨0, 2, 1, false⟩
      frame := some ⟨1, 2, 12⟩
      line := [0xC3, 1, 2, 12] ++ List.replicate n 7 } }

/-- The same frame with the sequencer's step of its own decisecond event still due, g1's CLEARING at its end. -/
def sendingEarly : State :=
  { withGroup (sending 1 .stop) 1 ⟨.clearing, 0, 0, 29, false, false, 29, 0⟩ with parts := { EventParts.idle with sequencer := true } }

theorem test_channel_byte_waits_for_the_step :
    (after .channelByteStart sendingEarly).link.line.length = 5 ∧
    (after .channelByteStart (after .groupSequencerStep sendingEarly)).link.line.length = 6 := by decide +kernel
theorem witness_channel_byte :
    ((sending 1 .stop).parts.groupsMoved = true ∧ sendingEarly.parts.sequencer = true) ∧
    (let s := sending 1 .stop
     s.link.frame = some ⟨1, 2, 12⟩ ∧ s.link.line.length = 4 + 1 ∧ (s.active.signs.get 0).used = true ∧
       (s.active.signs.get 0).bound = subjectOf 1 ∧ (s.active.signs.get 0).start.toNat ≤ 1 ∧
       1 < (s.active.signs.get 0).start.toNat + (s.active.signs.get 0).span.toNat) ∧
    (let s := sending 2 .stop
     s.link.line.length = 4 + 2 ∧ ∀ r, (s.active.signs.get r).used = true → (s.active.signs.get r).covers 2 = false) ∧
    (let s := sending 11 .stop
     s.link.line.length = 4 + 11 ∧ (s.active.signs.get 1).bound = 0xFF ∧ (s.active.signs.get 1).covers 11 = true) := by decide +kernel
theorem test_channel_bytes_follow_the_group :
    (after .channelByteStart (sending 1 .stop)).link.line.getLast? = some 0 ∧
    (after .channelByteStart (sending 1 .go)).link.line.getLast? = some 7 ∧
    (after .channelByteStart (sending 2 .stop)).link.line.getLast? = some 7 := by decide +kernel
theorem witness_reply_window : (sending 12 .stop).link.frame = some ⟨1, 2, 12⟩ ∧ (sending 12 .stop).link.line.length = 4 + 12 := by decide
theorem test_reply_window_opens :
    let t := after .replyWindowOpen (sending 12 .stop)
    t.link.windowOpen = true ∧ t.link.line.length = 18 ∧ crc (t.link.line.drop 1) = 0 := by decide +kernel

/-- The reply window open on record 0's poll, the sign in a state with a miss run. -/
def listening (st : SignState) (misses : Nat) : State :=
  let s := desk .normal .stop
  { s with link := { s.link with
      poll := some ⟨0, 2, 1, false⟩, windowOpen := true, signs := s.link.signs.set 0 ⟨st, misses, ⟨false, false, false⟩⟩ } }

/-- The same window, record 0's address changed by a commit while the poll is in flight. -/
def moved (st : SignState) : State :=
  let s := listening st 2
  let signs := cabinet.signs.set 0 ⟨3, 0, 2, 1, 0, false, true⟩
  { s with store := { s.store with nv := { s.store.nv with active := { cabinet with signs := signs } } } }

/-- A byte received without error. -/
def got (b : Byte) : ReceivedByte := ⟨b, parityBit b, true⟩

/-- Sign 2's reply with the display fault set, at the last moment of its window. -/
def faultReply : Reply :=
  ⟨3000, 5999, [got 0x3C, got 2, got 1, got 1, got (highByte (crc [2, 1, 1])), got (lowByte (crc [2, 1, 1]))]⟩

theorem witness_good_reply :
    (let s := listening .unknown 2
     s.link.poll = some ⟨0, 2, 1, false⟩ ∧ s.link.windowOpen = true ∧ (s.active.signs.get 0).address = 2 ∧ s.store.nv.valid = true) ∧
    (faultReply.firstStart ≤ 3000 ∧ faultReply.sixthEnd < 6000 ∧ 6 ≤ faultReply.bytes.length ∧
      (∀ b ∈ faultReply.bytes.take 6, b.parity = parityBit b.data ∧ b.stop = true) ∧
      (faultReply.bytes.take 6).map (·.data) = [0x3C, 2, 1, 1, highByte (crc [2, 1, 1]), lowByte (crc [2, 1, 1])] ∧
      highByte (crc [2, 1, 1]) ++ lowByte (crc [2, 1, 1]) = crc [2, 1, 1]) ∧
    ¬(⟨3001, 5999, faultReply.bytes⟩ : Reply).firstStart ≤ 3000 ∧
    ((moved .live).active.signs.get 0).address ≠ 2 := by decide +kernel
theorem test_good_reply :
    let t := after (.goodReply faultReply) (listening .unknown 2)
    t.link.signs.get 0 = ⟨.live, 0, ⟨true, false, false⟩⟩ ∧
      t.queue.held.map (fun r => (r.kind, r.subject, r.detail)) = [(.signLive, 0, 2), (.signStatus, 0, 1)] := by decide +kernel
/-- A commit of tables in progress. -/
def writing (x : Tables) (s : State) : State := { s with store := { s.store with busy := true, staging := x } }

/-- Two commits within one poll: the first changes the polled record's address, the second changes it back. -/
def awayAndBack : State :=
  after .commitCompletion (writing cabinet (after .commitCompletion (writing (moved .live).active (listening .live 2))))

/-- R139, R145: the outcome of a poll whose record a commit has changed is discarded. -/
theorem test_a_changed_record_discards_the_outcome :
    awayAndBack.link.poll = some ⟨0, 2, 1, true⟩ ∧ (awayAndBack.active.signs.get 0).address = 2 ∧
    (after (.goodReply faultReply) awayAndBack).link.signs.get 0 = ⟨.unknown, 0, ⟨false, false, false⟩⟩ ∧
    (after .replyMiss awayAndBack).link.signs.get 0 = ⟨.unknown, 0, ⟨false, false, false⟩⟩ ∧
    (after .replyMiss awayAndBack).link.poll = none := by decide +kernel
theorem witness_discarded_poll :
    awayAndBack.link.windowOpen = true ∧ (writing (moved .live).active (listening .live 2)).store.busy = true ∧
    (listening .live 2).link.poll = some ⟨0, 2, 1, false⟩ := by decide +kernel
theorem witness_misses :
    (let s := listening .live 1
     s.link.poll = some ⟨0, 2, 1, false⟩ ∧ min ((s.link.signs.get 0).missRun + 1) 255 < 3) ∧
    (let s := listening .live 2
     (s.link.signs.get 0).state ≠ .silent ∧ 3 ≤ min ((s.link.signs.get 0).missRun + 1) 255) ∧
    ((listening .silent 255).link.signs.get 0).state = .silent ∧ ((moved .live).active.signs.get 0).address ≠ 2 := by decide +kernel
theorem test_third_miss_silences :
    (after .signSilent (listening .live 2)).link.signs.get 0 = ⟨.silent, 3, ⟨false, false, false⟩⟩ ∧
    (after .replyMiss (listening .live 1)).link.signs.get 0 = ⟨.live, 2, ⟨false, false, false⟩⟩ := by decide +kernel

/-! ### Witnesses: the bus tap -/

/-- Chapter 4's straps. -/
def straps5 : State := { desk .normal .stop with tap := ⟨5, 0b11001101011001⟩ }

theorem witness_passed_access :
    (heldBy true false).held = true ∧ (0x4FFFF : Addr).toNat / 65536 ≠ straps5.tap.strap.toNat ∧
    (16384 ≤ (0x54000 : Addr).toNat % 65536 ∧ (0x54000 : Addr).toNat / 65536 = straps5.tap.strap.toNat) ∧
    (9 ≤ (0x50009 : Addr).toNat % 65536 ∧ (0x500FF : Addr).toNat % 65536 < 256) ∧
    (7 * 256 ≤ (0x50700 : Addr).toNat % 65536 ∧ (0x507FF : Addr).toNat % 65536 < 8 * 256) ∧
    13 * 256 ≤ (0x50D00 : Addr).toNat % 65536 := by decide
theorem test_passed_access_8 :
    (after (.passedAccess ⟨false, true, 0x50FF0, both, 0, 0x7777, 0⟩) straps5).bus.cycle = some ⟨true, 0x50FF0, both, 0x7777⟩ ∧
    (after (.passedAccess ⟨true, false, 0x4FFFF, both, 3, 0, 0xABCD⟩) straps5).bus.readData = some 0xABCD := by decide +kernel
/-- R72: a PASSED access changes no state, inside the guarded area too. -/
theorem test_passed_access_leaves_the_queue :
    let s := { straps5 with queue := { straps5.queue with accessed := true, fresh := 2, dropped := [] } }
    (after (.passedAccess ⟨true, false, 0x50700, both, 3, 0, 0xABCD⟩) s).queue = s.queue ∧
    (after (.servedWrite 63 0 ⟨1, both, 0⟩) s).queue = s.queue ∧ (after (.lowWordRead 13 0 ⟨both, 1⟩ 0 0) s).queue = s.queue := by
  decide +kernel
theorem witness_served_reads :
    straps5.held = false ∧ servedPage 2 = true ∧ servedPage 12 = true ∧ wordClass 1 240 = .unassigned ∧ wordClass 12 5 = .command ∧
    (3 : Level).toNat ≤ (requiredLevel straps5.tap.levelMap (readArea 2)).toNat ∧
    ¬(2 : Level).toNat ≤ (requiredLevel straps5.tap.levelMap (readArea 4)).toNat ∧
    straps5.detectors.select.toNat < 48 := by decide +kernel
theorem witness_served_reads_words :
    let passes := fun (page : Nat) => (0 : Level).toNat ≤ (requiredLevel straps5.tap.levelMap (readArea page)).toNat
    (servedPage 1 = true ∧ passes 1 ∧ (63 : Fin 256).val = 2 * (31 : GroupNo).val + 1) ∧
    (servedPage 2 = true ∧ passes 2 ∧ (159 : Fin 256).val = 128 + (31 : GroupNo).val) ∧
    (servedPage 3 = true ∧ passes 3 ∧ (0 : DetectorNo).val = straps5.detectors.select.toNat) ∧
    (servedPage 6 = true ∧ passes 6 ∧ (127 : Fin 128).val = 2 * (63 : Fin 256).val + 1) ∧
    (servedPage 10 = true ∧ passes 10 ∧ (10 : Fin 64).val = 8 + 731 / 256 ∧ (219 : Fin 256).val = 731 % 256) := by decide +kernel
/-- Record number `n`. -/
def numbered (n : Nat) : Record := ⟨.timeMark, 0, 0xFF, BitVec.ofNat 16 n, 0⟩

/-- A queue of the records `first` to `last` with taken-by counts. -/
def holding (first count takenA takenB : Nat) (b : Bool) (missed : Nat) : State :=
  { desk .normal .stop with queue := ⟨(List.range' first count).map numbered, takenA, takenB, b, missed, 0, [], false, false, 0⟩ }

/-- The newest `n` held records are submissions of the present moment. -/
def during (n : Nat) (s : State) : State := { s with queue := { s.queue with fresh := n } }

/-- What chapter 9 gives the queue. -/
def shown (s : State) : List Record × Nat × Nat × Bool × Nat :=
  (s.queue.held, s.queue.takenA, s.queue.takenB, s.queue.enabledB, s.queue.missed)

/-- The room that the statements of the group sequencer's records ask for, and the groups that ALL_STOP entry finds. -/
theorem witness_record_room :
    (holding 1 60 0 0 false 0).queue.held.length ≤ 60 ∧ (holding 1 64 0 0 false 0).queue.held.length ≤ 64 ∧
    ∀ g, clock50.configured g = true → (clock50.group g).state = .flashing ∨ (clock50.group g).state = .unlit := by decide +kernel

theorem witness_served_port_words :
    (servedPage 4 = true ∧ (holding 1 5 2 0 true 0).queue.held[2]? = some (numbered 3)) ∧
    (holding 1 5 5 0 true 0).queue.held.length ≤ (holding 1 5 5 0 true 0).queue.takenA ∧
    (servedPage 5 = true ∧ (holding 1 5 0 0 false 0).queue.enabledB = false) := by decide +kernel
theorem test_port_words_and_lock_word :
    (after (.lowWordRead 4 0 ⟨both, 0⟩ 0 0) (holding 1 5 2 0 true 0)).bus.readData = some 1 ∧
    (after (.lowWordRead 4 8 ⟨both, 0⟩ 0 0) (holding 1 5 2 0 true 0)).bus.readData = some 1 ∧
    (after (.lowWordRead 12 1 ⟨both, 0⟩ 0 0) { straps5 with store := { straps5.store with nv := { straps5.store.nv with
      lockFlags := 3, freeze := true } } }).bus.readData = some 0x8003 := by decide +kernel
theorem witness_reads_of_passed_pages :
    (servedPage 0 = false ∧ (9 : Fin 256).val = 9 ∧ (8 : Fin 256).val = (8 : Fin 9).val) ∧ servedPage 7 = false ∧ servedPage 13 = false := by
  decide
/-- R178: with every field of the lamp view set, the bits that hold no field read 0. -/
theorem test_lamp_view_bits_of_no_field :
    let s := withGroup (desk .normal .prepare) 1 ⟨.prepare, 0, 0, 0, true, true, 0, 0⟩
    let l := { s.lamps with samples := [⟨2, 2, 2⟩], goIntervals := [2], stopFailed := 2, clearFailed := 2, goFailed := 2 }
    (after (.lowWordRead 1 2 ⟨both, 0⟩ 0 0) s).bus.readData = some 0x0533 ∧
    (after (.lowWordRead 1 3 ⟨both, 0⟩ 0 0) { s with lamps := l }).bus.readData = some 0x7177 := by decide +kernel
theorem test_low_word_read_latches :
    let s := { straps5 with clock := 0x12345678 }
    (after (.lowWordRead 2 160 ⟨both, 0⟩ 3 0) s).bus.readData = some 0x5678 ∧ (after (.lowWordRead 2 160 ⟨both, 0⟩ 3 0) s).latches.clock = 0x1234 := by
  decide +kernel
theorem witness_served_writes :
    straps5.held = false ∧ both.any = true ∧ (⟨false, false⟩ : ByteEnables).any = false ∧ wordClass 1 5 = .readOnly ∧
    wordClass 3 2 = .stored ∧ wordClass 12 5 = .command ∧
    (requiredLevel straps5.tap.levelMap .detectors).toNat < (2 : Level).toNat ∧
    (requiredLevel straps5.tap.levelMap .serviceCounter).toNat < (1 : Level).toNat := by decide +kernel
theorem test_read_only_access_4 :
    (after (.servedWrite 1 5 ⟨0x1234, both, 0⟩) straps5).queue.held = [⟨.refused, 599, 1, 0x2005, 0⟩] := by decide +kernel

/-! ### Witnesses: the event queue -/

theorem witness_take :
    ((holding 7 1 1 0 true 0).queue.held.length ≤ (holding 7 1 1 0 true 0).queue.takenA ∧
      (requiredLevel straps5.tap.levelMap .portA).toNat < (2 : Level).toNat ∧ (holding 1 5 0 0 false 0).queue.enabledB = false) ∧
    ((holding 1 5 0 5 true 0).queue.held[0]? = some (numbered 1) ∧
      (holding 1 5 0 5 true 0).queue.takenA < (holding 1 5 0 5 true 0).queue.takenB) ∧
    ((holding 7 1 0 0 true 0).queue.enabledB = true ∧
      (holding 7 1 0 0 true 0).queue.takenB ≤ (holding 7 1 0 0 true 0).queue.takenA) := by decide +kernel
theorem test_two_readers_steps_2_and_4 :
    shown (after (.take ⟨.a, 0⟩ both 0 0) (holding 1 5 0 5 true 0)) = shown (holding 2 4 0 4 true 0) ∧
    shown (after (.take ⟨.b, 0⟩ both 0 0) (holding 2 6 0 4 true 0)) = shown (holding 2 6 0 5 true 0) := by decide +kernel
theorem test_two_readers_step_9 :
    shown (after (.take ⟨.b, 0⟩ both 0 0) (holding 7 128 128 0 true 3)) = shown (holding 8 127 127 0 true 3) := by decide +kernel

/-- A full queue, A's view alone, whose newest submission of the present moment was dropped. -/
def overflowing : State :=
  let s := holding 1 128 0 0 false 1
  { s with queue := { s.queue with dropped := [numbered 200] } }

theorem witness_take_part_way :
    QueueInv (holding 1 128 0 0 false 0).queue ∧ (holding 1 128 0 0 false 0).held = false ∧
    (holding 1 128 0 0 false 0).queue.accessed = false ∧
    exec (.take ⟨.a, 0⟩ both 0 0) (holding 1 128 0 0 false 0) = .next (after (.take ⟨.a, 0⟩ both 0 0) (holding 1 128 0 0 false 0)) :=
  ⟨⟨by decide +kernel, by decide +kernel, by decide +kernel, fun _ => ⟨rfl, rfl⟩, .inl rfl, by decide +kernel, by decide +kernel, by decide +kernel⟩, rfl, rfl, rfl⟩
/-- R148: each submission is an event of its own, and a read of the held count may stand between two of them. -/
theorem test_held_count_read_part_way :
    let s := during 2 (holding 1 5 0 0 false 0)
    (after (.lowWordRead 2 177 ⟨both, 1⟩ 0 0) s).bus.readData = some 4 ∧ (after (.lowWordRead 2 177 ⟨both, 0⟩ 0 0) s).bus.readData = some 5 ∧
    shown (after (.lowWordRead 2 177 ⟨both, 1⟩ 0 0) s) = shown s := by decide +kernel
/-- R148: what the processor has seen of the queue stands; a later submission is not taken before it. -/
theorem test_a_record_seen_stands :
    (after (.lowWordRead 4 0 ⟨both, 0⟩ 0 0) (during 2 (holding 1 5 0 0 false 0))).queue.fresh = 0 ∧
    (after (.lowWordRead 1 0 ⟨both, 0⟩ 0 0) (during 2 (holding 1 5 0 0 false 0))).queue.fresh = 2 := by decide +kernel
theorem witness_read_part_way : servedPage 4 = true ∧
    QueueInv (holding 1 5 2 0 true 0).queue ∧ (holding 1 5 2 0 true 0).held = false ∧ (holding 1 5 2 0 true 0).queue.accessed = false ∧
    exec (.lowWordRead 4 0 ⟨both, 0⟩ 0 0) (holding 1 5 2 0 true 0) =
      .next (after (.lowWordRead 4 0 ⟨both, 0⟩ 0 0) (holding 1 5 2 0 true 0)) :=
  ⟨rfl, ⟨by decide +kernel, by decide +kernel, by decide +kernel, nofun, .inr rfl, by decide +kernel, by decide +kernel, by decide +kernel⟩, rfl,
    rfl, rfl⟩
theorem test_take_of_a_full_queue_in_both_orders :
    shown (after (.take ⟨.a, 1⟩ both 0 0) overflowing) = ((List.range' 2 127).map numbered ++ [numbered 200], 0, 0, false, 0) ∧
    shown (after (.take ⟨.a, 0⟩ both 0 0) overflowing) = shown (holding 2 127 0 0 false 1) := by decide +kernel
theorem test_take_before_the_first_record :
    (after (.take ⟨.a, 1⟩ both 0 0) (during 1 (holding 1 1 0 0 false 0))).bus.readData = some 0 ∧
    shown (after (.take ⟨.a, 1⟩ both 0 0) (during 1 (holding 1 1 0 0 false 0))) = shown (holding 1 1 0 0 false 0) ∧
    (after (.take ⟨.a, 0⟩ both 0 0) (during 1 (holding 1 1 0 0 false 0))).bus.readData = some 1 := by decide +kernel
theorem witness_reader_b :
    Taken (holding 1 5 0 0 false 0) (requiredLevel (holding 1 5 0 0 false 0).tap.levelMap .portA) (wr 1) ∧
    (wr 1).enables.low = true ∧ (holding 1 5 0 0 false 0).queue.enabledB = false ∧ (holding 8 128 128 0 true 0).queue.enabledB = true ∧
    (⟨1, ⟨false, true⟩, 0⟩ : BusWrite).enables.low = false := by unfold Taken; decide +kernel
theorem witness_enable_part_way :
    QueueInv (holding 1 3 0 0 false 0).queue ∧ (holding 1 3 0 0 false 0).held = false ∧
    ((holding 1 3 0 0 false 0).queue.accessed = false ∧ (holding 1 3 0 0 false 0).queue.enabledB = false ∧
      (after (.enableReaderB ⟨wr 1, 0⟩) (holding 1 3 0 0 false 0)).queue.enabledB = true ∧
      (holding 1 3 0 0 false 0).queue.held.length + 125 ≤ 128) ∧
    exec (.enableReaderB ⟨wr 1, 0⟩) (holding 1 3 0 0 false 0) = .next (after (.enableReaderB ⟨wr 1, 0⟩) (holding 1 3 0 0 false 0)) ∧
    exec (.disableReaderB ⟨wr 0, 0⟩) (holding 1 3 0 0 true 0) = .next (after (.disableReaderB ⟨wr 0, 0⟩) (holding 1 3 0 0 true 0)) :=
  ⟨⟨by decide +kernel, by decide +kernel, by decide +kernel, fun _ => ⟨rfl, rfl⟩, .inl rfl, by decide +kernel, by decide +kernel, by decide +kernel⟩, rfl,
    by decide +kernel, rfl, rfl⟩
theorem test_enable_part_way :
    (after (.enableReaderB ⟨wr 1, 2⟩) (during 2 (holding 1 5 0 0 false 0))).queue.viewB = [numbered 4, numbered 5] ∧
    (after (.enableReaderB ⟨wr 1, 2⟩) (holding 1 5 0 0 false 0)).queue.viewB = [] := by decide +kernel
/-- R152: the mark's submission is first, whatever the sender says of the enabling write that follows it. -/
theorem test_mark_before_the_enable_counts_as_taken :
    let s := after (.timeMarkWordWrite (wr 0)) (holding 1 5 0 0 false 0)
    s.queue.held.length = 6 ∧ (after (.enableReaderB ⟨wr 1, 1⟩) s).queue.viewB = [] := by decide +kernel
theorem test_two_readers_steps_1_and_12 :
    shown (after (.enableReaderB ⟨wr 1, 0⟩) (holding 1 5 0 0 false 0)) = shown (holding 1 5 0 5 true 0) ∧
    shown (after (.disableReaderB ⟨wr 0, 0⟩) (holding 8 128 128 0 true 0)) = shown (holding 8 0 0 0 false 0) := by decide +kernel

/-- The desk at a clock value. -/
def clockAt (c : BitVec 32) : State := { desk .normal .stop with clock := c }

theorem witness_time_mark :
    ((clockAt 600).parts.mark = true ∧ (clockAt 600).clock.toNat % 600 = 0) ∧ (clockAt 0).clock.toNat % 600 = 0 ∧
    (clockAt 599).clock.toNat % 600 ≠ 0 ∧ State.reset.parts.mark = false := by decide
theorem test_time_mark : (after .timeMark (clockAt 66000)).queue.held = [⟨.timeMark, 464, 0xFF, 1, 0⟩] := by decide +kernel
theorem witness_time_mark_word :
    (desk .normal .stop).held = false ∧ both.any = true ∧ (3 : Level).toNat ≤ (requiredLevel (desk .normal .stop).tap.levelMap .portA).toNat ∧
    (requiredLevel straps5.tap.levelMap .portA).toNat < (2 : Level).toNat ∧ (⟨false, false⟩ : ByteEnables).any = false := by decide
theorem test_time_mark_word :
    (after (.timeMarkWordWrite (wr 0xBEEF)) (clockAt 66000)).queue.held = [⟨.timeMark, 464, 0xFF, 1, 0⟩] := by decide +kernel
theorem witness_submission :
    ((holding 8 127 0 0 false 3).queue.held.length < 128 ∧ 128 ≤ (holding 7 128 128 0 true 254).queue.held.length) ∧
    ((holding 8 127 0 0 false 3).queue.moment = [] ∧
      (during 1 (holding 8 127 0 0 false 3)).queue.moment.getLast? = some (numbered 134) ∧
      mustFollow (numbered 0) (numbered 134) = true) := by decide +kernel
theorem witness_submission_in_a_moment : QueueInv (during 3 (holding 1 128 0 0 false 0)).queue ∧
    (during 3 (holding 1 128 0 0 false 0)).queue.held.length = 128 :=
  ⟨⟨by decide +kernel, by decide +kernel, by decide +kernel, fun _ => ⟨rfl, rfl⟩, .inl rfl, by decide +kernel, by decide +kernel, by decide +kernel⟩, rfl⟩
theorem test_order_of_blocks_in_a_moment :
    (mustFollow ⟨.refused, 0, 0, 0, 0⟩ ⟨.groupState, 0, 0, 0, 0⟩ = false ∧ mustFollow ⟨.fault, 0, 0, 0, 0⟩ ⟨.lampFail, 0, 0, 0, 0⟩ = true) ∧
    mustFollow ⟨.mode, 0, 0xFF, modeDetail .toFlash .normal .refusals, 0⟩ ⟨.refused, 0, 0, 0, 0⟩ = true ∧
    mustFollow ⟨.mode, 0, 0xFF, modeDetail .toFlash .normal .software, 0⟩ ⟨.refused, 0, 0, 0, 0⟩ = false ∧
    mustFollow ⟨.mode, 0, 0xFF, modeDetail .flash .toFlash .refusals, 0⟩ ⟨.refused, 0, 0, 0, 0⟩ = false ∧
    (during 2 (holding 1 5 0 0 false 0)).queue.passes ⟨.refused, 0, 0, 0, 0⟩ = 2 := by decide +kernel
theorem test_two_readers_steps_8_and_10 :
    (submit .timeMark 0xFF 135 { holding 8 127 127 0 true 3 with clock := 0 }).queue.held.getLast? = some ⟨.timeMark, 0, 0xFF, 135, 3⟩ ∧
    shown (submit .timeMark 0xFF 135 (holding 7 128 128 0 true 2)) = shown (holding 7 128 128 0 true 3) := by decide +kernel

/-! ### Witnesses: the detector page and the sign image -/

theorem witness_detector_writes :
    Taken (desk .normal .stop) (requiredLevel (desk .normal .stop).tap.levelMap .detectors) ⟨47, both, 1⟩ ∧
    (mergeBytes (desk .normal .stop).detectors.select 47 both).toNat < 48 ∧
    48 ≤ (mergeBytes (desk .normal .stop).detectors.select 48 both).toNat ∧
    (desk .normal .stop).detectors.select.toNat = (0 : DetectorNo).val ∧
    (2 : Word).toNat % 4 = detectorKindCode .pulse ∧ DetectorKind.pulse ≠ ((desk .normal .stop).detector 0).kind := by
  unfold Taken; decide +kernel
theorem test_select_above_47_is_refused :
    let t := after (.detectorSelectWrite (wr 48)) (desk .normal .stop)
    t.detectors.select = 0 ∧ t.queue.held.map (fun r => (r.kind, r.subject, r.detail)) = [(.refused, 3, 0x3000)] := by decide +kernel
theorem test_kind_write : ((after (.detectorKindWrite (wr 2)) (desk .normal .stop)).detector 0).state = .free := by decide +kernel

/-- Detector 0, selected, a faulted PRESENCE detector that maps g3 alone. -/
def faulted : State := withDetector (desk .normal .stop) 0 { loop .presence .faultedOff with callMask := 8 }

theorem witness_detector_settings :
    Taken faulted (requiredLevel faulted.tap.levelMap .detectors) ⟨3, both, 1⟩ ∧ faulted.detectors.select.toNat = (0 : DetectorNo).val := by
  unfold Taken; decide +kernel
theorem test_mask_write_calls_at_once :
    (after (.detectorSettingsWrite 1 (wr 0x19)) faulted).detectors.calls = 1 ∧
    ((after (.detectorSettingsWrite 3 (wr 0)) faulted).detector 0).prescale = 1 := by decide +kernel
theorem witness_call_clear : Taken faulted (requiredLevel faulted.tap.levelMap .detectors) (wr 0xFFFF) := by unfold Taken; decide +kernel
theorem test_call_clear_keeps_standing_calls :
    (after (.callClearAlias 0 (wr 0xFFFF)) { faulted with detectors := { faulted.detectors with calls := 0x3000B } }).detectors.calls =
      0x30008 := by decide +kernel
theorem witness_sign_image :
    Taken straps5 (requiredLevel straps5.tap.levelMap .signImage) ⟨0xA5, ⟨false, true⟩, 2⟩ := by unfold Taken; decide +kernel
theorem test_sign_image_access_5 :
    let t := after (.signImageWrite 3 ⟨0xA5, ⟨false, true⟩, 2⟩) (sending 0 .stop)
    t.link.image.get 7 = 0 ∧ t.link.image.get 6 = 7 := by decide +kernel

/-! ### Witnesses: the table store -/

/-- The cabinet in FLASH with the key closed, its staging tables, its lock flags and the freeze set. -/
def workshop (staging : Tables) (flags : BitVec 7) (freeze : Bool) : State :=
  { keyedFlash with store := { keyedFlash.store with
      staging := staging, nv := { keyedFlash.store.nv with lockFlags := flags, freeze := freeze } } }

theorem witness_staging_writes :
    Taken (desk .flash .flashing) 0 (wr 5) ∧ (desk .flash .flashing).mode.switch.level = false ∧
    (committing.mode.switch.level = true ∧ committing.store.busy = true) ∧
    (let s := workshop cabinet 3 false
     s.mode.switch.level = true ∧ s.store.busy = false ∧
       s.store.nv.lockFlags.getLsbD (sectionCode (placeSection (stagingPlace 575))) = true ∧
       ¬s.store.nv.lockFlags.getLsbD (sectionCode (placeSection (stagingPlace 731))) = true) ∧
    ((8 : Nat) = 8 + 255 / 256 ∧ (10 : Nat) = 8 + 731 / 256 ∧ (219 : Nat) = 731 % 256) := by unfold Taken; decide +kernel
theorem test_staging_write : (after (.stagingWrite 724 (wr 5)) (workshop cabinet 3 false)).store.staging.timing.groupCount = 5 := by
  decide +kernel
theorem test_locked_staging_write :
    (after (.stagingWrite 130 (wr 50)) (workshop cabinet 3 false)).queue.held.map (·.detail) = [0x7082] := by decide +kernel
theorem witness_staging_words : (0 : Nat) < 732 ∧ (731 : Nat) < 732 ∧ (675 : Nat) ≠ 676 := by decide
theorem test_staging_word_of_a_record : cabinet.word (stagingPlace 576) = 0x0110 ∧ cabinet.word (stagingPlace 578) = 0x1E14 := by decide +kernel
theorem witness_lock_writes :
    Taken (desk .flash .flashing) 0 (wr 3) ∧ (desk .flash .flashing).mode.switch.level = false ∧
    (let s := withMode State.reset fun m => { m with switch := ⟨true, false⟩ }
     s.mode.switch.level = true ∧ s.store.nv.valid = false) ∧
    ((workshop cabinet 0 true).store.nv.valid = true ∧ (workshop cabinet 0 true).store.nv.freeze = true) ∧
    (committing.store.nv.freeze = false ∧ committing.store.busy = true) ∧
    (let s := workshop engineer 0 false
     s.store.nv.valid = true ∧ s.store.nv.freeze = false ∧ s.store.busy = false) := by unfold Taken; decide +kernel
theorem test_lock_write_reloads_its_sections :
    let t := after (.lockWrite (wr 3)) (workshop engineer 0 false)
    t.store.nv.lockFlags = 3 ∧ t.store.staging.conflict = cabinet.conflict ∧ t.store.staging.timing = engineer.timing := by decide +kernel
theorem test_lock_freeze : (after (.lockFreeze (wr 0)) (workshop cabinet 4 false)).store.nv.freeze = true := by decide +kernel
theorem witness_commit_request :
    Taken (workshop engineer 0 false) 0 (wr 0) ∧ (desk .flash .flashing).mode.switch.level = false ∧ committing.store.busy = true ∧
    (let s := withMode (desk .normal .stop) fun m => { m with switch := ⟨true, false⟩ }
     s.mode.switch.level = true ∧ s.store.busy = false ∧ s.mode.mode = .normal) ∧
    ((workshop engineer 0 false).mode.mode = .flash ∧ engineer.firstViolation = some (4, .conflict, 68)) ∧
    ((workshop cabinet 0 false).store.staging.firstViolation = none ∧
      (workshop cabinet 0 false).store.staging = (workshop cabinet 0 false).store.nv.active) ∧
    (let t := { cabinet with timing := { cabinet.timing with startFlash := 60 } }
     t.firstViolation = none ∧ t ≠ (workshop t 0 false).store.nv.active) := by unfold Taken; decide +kernel
theorem test_commit_request_invalid :
    (after (.commitRequest (wr 0)) (workshop engineer 0 false)).store.result = .invalid 4 .conflict 68 := by decide +kernel

/-- The corrected tables of chapter 10, their write in progress with normal-pending set. -/
def completing : State :=
  let t := { engineer with
    conflict := engineer.conflict.set 4 5
    intergreen := engineer.intergreen.set 2 ((engineer.intergreen.get 2).set 4 85) }
  let s := workshop t 0 false
  { s with mode := { s.mode with normalPending := true }, store := { s.store with busy := true } }

/-- The same without normal-pending, in DARK. -/
def completingDark : State :=
  let s := withMode completing fun m => { m with mode := .dark, normalPending := false }
  { s with groups := (desk .dark .unlit).groups }

/-- A write in progress of tables with one group less, every call set. -/
def shrinking : State :=
  let s := workshop { cabinet with timing := { cabinet.timing with groupCount := 3 } } 0 false
  { s with store := { s.store with busy := true }, detectors := { s.detectors with calls := 9 } }

theorem witness_commit_completion :
    (desk .flash .flashing).store.busy = false ∧
    (completing.store.busy = true ∧ completing.store.staging.firstViolation = none ∧ completing.mode.mode = .flash ∧
      completing.mode.normalPending = true ∧ completing.configured 4 = false) ∧
    (completingDark.mode.mode ≠ .flash ∧ completingDark.group 4 = Group.unconfigured) ∧
    (shrinking.store.busy = true ∧ shrinking.configured 3 = true ∧ (after .commitCompletion shrinking).configured 3 = false) := by
  decide +kernel
theorem test_commit_ends_a_group :
    (after .commitCompletion shrinking).group 3 = Group.unconfigured ∧ (after .commitCompletion shrinking).detectors.calls = 1 := by
  decide +kernel
theorem test_commit_completion :
    let t := after .commitCompletion completing
    t.mode.mode = .allStop ∧ t.store.nv.commits = 1 ∧
      ([0, 1, 2, 3, 4] : List GroupNo).map (fun g => (t.group g).state) = [.clearing, .clearing, .stop, .stop, .stop] := by decide +kernel

/-- A device whose service counter stands at a value. -/
def serviced (n : Nat) : State :=
  let s := desk .normal .stop
  { s with store := { s.store with nv := { s.store.nv with service := n } } }

theorem witness_service_write :
    Taken (serviced 16777000) (requiredLevel (serviced 16777000).tap.levelMap .serviceCounter) (wr 215) ∧
    (serviced 16777000).store.nv.service + 215 ≤ 16777215 ∧ 16777215 < (serviced 16777000).store.nv.service + 216 := by
  unfold Taken; decide +kernel
theorem test_service_write :
    (after (.serviceWrite (wr 215)) (serviced 16777000)).store.nv.service = 16777215 ∧
    (after (.serviceWrite (wr 216)) (serviced 16777000)).queue.held.map (·.detail) = [0xA005] := by decide +kernel

/-! ### Witnesses: the invariants -/

/-- NORMAL with g3 in its approach: one advance short of GO, its intergreens just run at that advance (chapter 3, clock 129). -/
def clock129 : State :=
  let s := desk .normal .stop
  let s := { s with page := { s.page with word0 := ⟨8, true, false⟩ }, pending := [.groupSequencerStep] }
  let s := withGroup s 1 ⟨.stop, 0, 0, 0, false, false, 79, 0⟩
  let s := withGroup s 2 ⟨.stop, 0, 0, 0, false, false, 79, 0⟩
  withGroup s 3 ⟨.prepare, 19, 0, 0, false, false, 79, 0⟩

theorem witness_safety_invariant : SafetyInv clock129 :=
  ⟨by decide +kernel, by decide +kernel, by unfold Exclusive; decide +kernel, by decide +kernel, by decide +kernel, by decide +kernel⟩
theorem witness_intergreen_invariant : IntergreenInv clock129 := ⟨by decide +kernel, by decide +kernel, by decide +kernel⟩
theorem witness_range_invariants : RangeInv clock129 ∧ QueueInv clock129.queue ∧ TimersInRange clock129 :=
  ⟨⟨by unfold groupInRange; decide +kernel, by decide +kernel, by unfold detectorInRange; decide +kernel, by decide +kernel,
    by decide +kernel, by decide +kernel, by decide +kernel, by unfold countersInRange; decide +kernel,
    by unfold modeTimersInRange; decide +kernel, by decide +kernel, by unfold lampsInRange; decide +kernel⟩,
   ⟨by decide +kernel, by decide +kernel, by decide +kernel, by decide +kernel, by decide +kernel, by decide +kernel, by decide +kernel,
    by decide +kernel⟩,
   ⟨by decide +kernel, by decide +kernel, by decide +kernel⟩⟩
theorem witness_step_into_go :
    step clock129 = .next (after .groupSequencerStep { clock129 with pending := [] }) ∧ (clock129.group 3).state ≠ .go ∧
    ((after .groupSequencerStep { clock129 with pending := [] }).group 3).state = .go ∧ clock129.inConflict 2 3 = true ∧
    (after .groupSequencerStep { clock129 with pending := [] }).active.intergreenOf 2 3 = 80 := ⟨rfl, by decide +kernel⟩
theorem witness_modes_of_the_safety_invariant :
    (desk .faultFlash .flashing).mode.mode = .faultFlash ∧ clock129.mode.mode = .normal ∧ (clock129.group 3).state = .prepare ∧
    clock129.inConflict 3 1 = true := by decide +kernel
theorem witness_reset_of_valid_tables :
    (heldBy true false).store.nv.valid = true ∧ (heldBy true false).active.firstViolation = none ∧ countersInRange (heldBy true false).store.nv := by
  unfold countersInRange; decide +kernel
theorem witness_counters_and_locks :
    (workshop cabinet 3 true).store.nv.freeze = true ∧ (workshop cabinet 3 false).store.nv.lockFlags.getLsbD 1 = true := by decide +kernel

end Sys2Proof.Tests
end

/-! PROOFS. Several submissions taken one after another: what the queue then holds, by block and by kind (R147, R148). -/

namespace Sys2Proof.Machine

open Sys2Proof

/-- What a submission says: its kind, stamp, subject and detail. -/
abbrev Said := EventKind × Word × Byte × Word

/-- Submissions taken one after another, each at its place. -/
def Queue.submits (l : List Said) (q : Queue) : Queue := l.foldl (fun q c => q.submit c.1 c.2.1 c.2.2.1 c.2.2.2) q

@[simp] theorem Queue.submits_nil (q : Queue) : q.submits [] = q := rfl

@[simp] theorem Queue.submits_cons (c : Said) (l : List Said) (q : Queue) :
    q.submits (c :: l) = (q.submit c.1 c.2.1 c.2.2.1 c.2.2.2).submits l := rfl

theorem Queue.submits_append (l k : List Said) (q : Queue) : q.submits (l ++ k) = (q.submits l).submits k :=
  List.foldl_append

theorem QueueInv.submits {q : Queue} (h : QueueInv q) (l : List Said) : QueueInv (q.submits l) := by
  induction l generalizing q with
  | nil => exact h
  | cons c l ih => exact ih (h.submit _ _ _ _)

/-- With room for all, each submission lengthens the queue by one record. -/
theorem Queue.submits_length (l : List Said) {q : Queue} (h : q.held.length + l.length ≤ 128) :
    (q.submits l).held.length = q.held.length + l.length := by
  induction l generalizing q with
  | nil => rfl
  | cons c l ih =>
    rw [List.length_cons] at h
    have h1 := Queue.submit_length (q := q) (by omega) c.1 c.2.1 c.2.2.1 c.2.2.2
    rw [Queue.submits_cons, ih (by omega), h1, List.length_cons]
    omega

/-- With room for all, a block's records grow by its own submissions in their order (R148). -/
theorem Queue.submits_ofBlock (l : List Said) {q : Queue} (h : q.held.length + l.length ≤ 128) (b : Block) :
    (q.submits l).ofBlock b = q.ofBlock b ++ l.filter fun c => c.1.block = b := by
  induction l generalizing q with
  | nil => simp
  | cons c l ih =>
    rw [List.length_cons] at h
    have h1 := Queue.submit_length (q := q) (by omega) c.1 c.2.1 c.2.2.1 c.2.2.2
    rw [Queue.submits_cons, ih (by omega), Queue.submit_ofBlock (by omega), List.filter_cons]
    by_cases hb : c.1.block = b <;> simp [hb]

/-- The GROUP_STATE records are records of the group sequencer. -/
theorem Queue.groupStates_eq (q : Queue) :
    q.groupStates = (q.ofBlock .groupSequencer).filter fun c => c.1 = .groupState := by
  rw [Queue.groupStates, Queue.ofBlock, List.filter_filter]
  congr 1; funext c
  by_cases h : c.1 = .groupState <;> simp [h, EventKind.block]

/-- The LATE_CANCEL and STOP_HELD records are records of the group sequencer. -/
theorem Queue.requestRecords_eq (q : Queue) :
    q.requestRecords = (q.ofBlock .groupSequencer).filter fun c => c.1 = .lateCancel ∨ c.1 = .stopHeld := by
  rw [Queue.requestRecords, Queue.ofBlock, List.filter_filter]
  congr 1; funext c
  by_cases h : c.1 = .lateCancel ∨ c.1 = .stopHeld
  · rcases h with h | h <;> simp [h, EventKind.block]
  · simp [h]

theorem Queue.submits_groupStates (l : List Said) {q : Queue} (h : q.held.length + l.length ≤ 128) :
    (q.submits l).groupStates = q.groupStates ++ l.filter fun c => c.1 = .groupState := by
  rw [Queue.groupStates_eq, Queue.submits_ofBlock l h, List.filter_append, ← Queue.groupStates_eq, List.filter_filter]
  congr 2; funext c
  by_cases hc : c.1 = .groupState <;> simp [hc, EventKind.block]

theorem Queue.submits_requestRecords (l : List Said) {q : Queue} (h : q.held.length + l.length ≤ 128) :
    (q.submits l).requestRecords = q.requestRecords ++ l.filter fun c => c.1 = .lateCancel ∨ c.1 = .stopHeld := by
  rw [Queue.requestRecords_eq, Queue.submits_ofBlock l h, List.filter_append, ← Queue.requestRecords_eq, List.filter_filter]
  congr 2; funext c
  by_cases hc : c.1 = .lateCancel ∨ c.1 = .stopHeld
  · rcases hc with hc | hc <;> simp [hc, EventKind.block]
  · simp [hc]

/-- With room a submission stands in the queue. -/
theorem Queue.mem_submit_self {q : Queue} (h : q.held.length < 128) (k : EventKind) (stamp : Word) (x : Byte) (d : Word) :
    (k, stamp, x, d) ∈ (q.submit k stamp x d).contents := by
  obtain ⟨n, -, -, h3⟩ := Queue.submit_contents h k stamp x d
  rw [h3]; simp

/-- With room for all, submissions remove no held record. -/
theorem Queue.mem_submits_of_held (l : List Said) {q : Queue} (h : q.held.length + l.length ≤ 128) {c : Said} (hc : c ∈ q.contents) :
    c ∈ (q.submits l).contents := by
  induction l generalizing q with
  | nil => exact hc
  | cons a l ih =>
    rw [List.length_cons] at h
    have h1 := Queue.submit_length (q := q) (by omega) a.1 a.2.1 a.2.2.1 a.2.2.2
    rw [Queue.submits_cons]
    exact ih (by omega) (Queue.mem_submit (by omega) hc _ _ _ _)

/-- With room for all, every submission stands in the queue. -/
theorem Queue.mem_submits (l : List Said) {q : Queue} (h : q.held.length + l.length ≤ 128) {c : Said} (hc : c ∈ l) :
    c ∈ (q.submits l).contents := by
  induction l generalizing q with
  | nil => cases hc
  | cons a l ih =>
    rw [List.length_cons] at h
    have h1 := Queue.submit_length (q := q) (by omega) a.1 a.2.1 a.2.2.1 a.2.2.2
    rw [Queue.submits_cons]
    rcases List.mem_cons.mp hc with rfl | hc
    · exact Queue.mem_submits_of_held l (by omega) (Queue.mem_submit_self (by omega) _ _ _ _)
    · exact ih (by omega) hc

/-- A record is held exactly where its content stands among the queue's. -/
theorem records_iff (q : Queue) (s : State) (k : EventKind) (x : Byte) (d : Word) :
    Records q s k x d ↔ (k, lowWord s.clock, x, d) ∈ q.contents := by
  simp only [Records, Queue.contents, List.mem_map, Record.content, Prod.mk.injEq]
  constructor
  · rintro ⟨r, hr, h1, h2, h3, h4⟩; exact ⟨r, hr, h1, h4, h2, h3⟩
  · rintro ⟨r, hr, h1, h4, h2, h3⟩; exact ⟨r, hr, h1, h2, h3, h4⟩

end Sys2Proof.Machine

/-! PROOFS. What one group's turn does, as an effect: the group's record after it, the records it submits, and what it holds back, clears and
starts. Effects compose; a sweep over the configured groups does to each of them its own effect, and submits their records in ascending
group number (R8). -/

namespace Sys2Proof.Machine

open Sys2Proof

/-! ### Effects -/

/-- What a turn of a group leaves: the group's record, the records submitted, whether it holds the timers, E and the request age back until
the next decisecond event, and whether it clears the group's call. -/
structure Effect where
  group : Group
  records : List Said
  timers : Bool
  elapsed : Bool
  ages : Bool
  calls : Bool

/-- An effect on the group's record alone. -/
def Effect.stay (x : Group) : Effect := ⟨x, [], false, false, false, false⟩

/-- The effect of an entry into a state (R8, R9, R21). -/
def Effect.enter (s : State) (g : GroupNo) (x : Group) (st : GroupState) (elapsed : Option Nat) (held : Bool) : Effect :=
  ⟨⟨st, 0, 0, 0, false, held, elapsed.getD x.elapsed, 0⟩, [groupRecord s g st x.state], true, elapsed.isSome, true, false⟩

/-- One effect after another. -/
def Effect.andThen (e f : Effect) : Effect :=
  ⟨f.group, e.records ++ f.records, e.timers || f.timers, e.elapsed || f.elapsed, e.ages || f.ages, e.calls || f.calls⟩

/-! ### The stopped modes' timers -/

/-- The mode is ALL_STOP or TO_FLASH, whose timers start as the last configured group enters STOP (R52, R57). -/
def State.stopping (s : State) : Prop := s.mode.mode = .allStop ∨ s.mode.mode = .toFlash

/-- The stopped mode's timer starts at 0, its first advance held back where this event's is still due (R47, R52, R57). -/
structure TimerStarted (s t : State) : Prop where
  mode : t.mode = { s.mode with running := true, allStopTimer := 0, flashEntryTimer := 0 }
  heldModeTimer : t.parts.heldModeTimer = s.parts.modeTimer

/-- The mode controller is not reached. -/
structure TimerStands (s t : State) : Prop where
  mode : t.mode = s.mode
  heldModeTimer : t.parts.heldModeTimer = s.parts.heldModeTimer

theorem TimerStands.refl (s : State) : TimerStands s s := ⟨rfl, rfl⟩

theorem TimerStands.trans {s t u : State} (h : TimerStands s t) (k : TimerStands t u) : TimerStands s u :=
  ⟨k.mode.trans h.mode, k.heldModeTimer.trans h.heldModeTimer⟩

/-- All that moves of groups can do to the mode controller: nothing, or in a stopped mode the start of its timer. -/
def TimerMove (s t : State) : Prop := TimerStands s t ∨ (s.stopping ∧ TimerStarted s t)

theorem TimerMove.trans {s t u : State} (hp : t.parts.modeTimer = s.parts.modeTimer) (h : TimerMove s t) (k : TimerMove t u) :
    TimerMove s u := by
  rcases h with h | ⟨hs, h⟩ <;> rcases k with k | ⟨ks, k⟩
  · exact .inl (h.trans k)
  · refine .inr ⟨?_, by rw [k.mode, h.mode], by rw [k.heldModeTimer, hp]⟩
    unfold State.stopping at ks ⊢; rwa [h.mode] at ks
  · exact .inr ⟨hs, by rw [k.mode, h.mode], by rw [k.heldModeTimer, h.heldModeTimer]⟩
  · exact .inr ⟨hs, by rw [k.mode, h.mode], by rw [k.heldModeTimer, hp]⟩

/-! ### Turns -/

/-- A group's bit after a turn of group `g` that sets it under `b`, where the sequencer's step is still due. -/
def Marked (g : GroupNo) (b : Bool) (m m' : Mask) : Prop :=
  ∀ i : GroupNo, m'.getLsbD i.val = (m.getLsbD i.val || (b && decide (g = i)))

/-- A turn of group `g` from `s` to `t` with the effect `e`. -/
structure Turn (g : GroupNo) (e : Effect) (s t : State) : Prop where
  moves : MovesOnly g s t
  group : t.group g = e.group
  queue : t.queue = s.queue.submits e.records
  timers : Marked g (s.parts.sequencer && e.timers) s.parts.heldTimers t.parts.heldTimers
  elapsed : Marked g (s.parts.sequencer && e.elapsed) s.parts.heldElapsed t.parts.heldElapsed
  ages : Marked g (s.parts.sequencer && e.ages) s.parts.heldAges t.parts.heldAges
  calls : ∀ i : GroupNo, t.detectors.calls.getLsbD i.val =
    if e.calls = true ∧ g = i then s.standing.getLsbD i.val else s.detectors.calls.getLsbD i.val
  mode : TimerMove s t

theorem Turn.frame {g : GroupNo} {e : Effect} {s t : State} (h : Turn g e s t) : GroupFrame s t := h.moves.1

theorem Marked.refl (g : GroupNo) (m : Mask) : Marked g false m m := fun _ => by simp

theorem Marked.trans {g : GroupNo} {b c : Bool} {m n k : Mask} (h : Marked g b m n) (l : Marked g c n k) : Marked g (b || c) m k := by
  intro i
  rw [l i, h i, Bool.or_assoc, Bool.and_or_distrib_right]

/-- Turns of a group compose. -/
theorem Turn.andThen {g : GroupNo} {e f : Effect} {s t u : State} (h : Turn g e s t) (k : Turn g f t u) : Turn g (e.andThen f) s u where
  moves := h.moves.trans k.moves
  group := k.group
  queue := by rw [k.queue, h.queue, ← Queue.submits_append]; rfl
  timers := by
    have := h.timers.trans k.timers
    rwa [h.frame.sequencer, ← Bool.and_or_distrib_left] at this
  elapsed := by
    have := h.elapsed.trans k.elapsed
    rwa [h.frame.sequencer, ← Bool.and_or_distrib_left] at this
  ages := by
    have := h.ages.trans k.ages
    rwa [h.frame.sequencer, ← Bool.and_or_distrib_left] at this
  calls := by
    intro i
    rw [k.calls i, h.calls i, h.frame.standing]
    by_cases hi : g = i <;> rcases he : e.calls with _ | _ <;> rcases hf : f.calls with _ | _ <;>
      simp [Effect.andThen, hi, he, hf]
  mode := h.mode.trans h.frame.modeTimerPart k.mode

/-- A turn that replaces the group's record and does nothing else. -/
theorem setGroup_turn (g : GroupNo) (x : Group) (s : State) : Turn g (.stay x) s (s.setGroup g x) where
  moves := setGroup_moves g x s
  group := by simp [Effect.stay]
  queue := rfl
  timers := by intro i; simp [Effect.stay]
  elapsed := by intro i; simp [Effect.stay]
  ages := by intro i; simp [Effect.stay]
  calls := by intro i; simp [Effect.stay]
  mode := .inl ⟨rfl, rfl⟩

/-- A turn that does nothing. -/
theorem Turn.refl (g : GroupNo) (s : State) : Turn g (.stay (s.group g)) s s where
  moves := .refl g s
  group := rfl
  queue := rfl
  timers := by intro i; simp [Effect.stay]
  elapsed := by intro i; simp [Effect.stay]
  ages := by intro i; simp [Effect.stay]
  calls := by intro i; simp [Effect.stay]
  mode := .inl (.refl s)

/-- A turn that submits a record and does nothing else. -/
theorem submit_turn (g : GroupNo) (k : EventKind) (x : Byte) (d : Word) (s : State) :
    Turn g ⟨s.group g, [(k, lowWord s.clock, x, d)], false, false, false, false⟩ s (submit k x d s) where
  moves := submit_moves g k x d s
  group := rfl
  queue := rfl
  timers := by intro i; simp
  elapsed := by intro i; simp
  ages := by intro i; simp
  calls := by intro i; simp
  mode := .inl ⟨rfl, rfl⟩

/-- The call-clear of one group (R123). -/
theorem clearCalls_turn (g : GroupNo) (s : State) :
    Turn g ⟨s.group g, [], false, false, false, true⟩ s (clearCalls (groupBit g) s) where
  moves := clearCalls_moves g _ s
  group := rfl
  queue := rfl
  timers := by intro i; simp
  elapsed := by intro i; simp
  ages := by intro i; simp
  calls := by
    intro i
    rw [clearCalls_getLsbD, groupBit_getLsbD]
    by_cases hi : g = i <;> simp [hi]
  mode := .inl ⟨rfl, rfl⟩

/-- A group's bit set in a mask. -/
theorem Marked.setBit (g : GroupNo) (m : Mask) : Marked g true m (m ||| groupBit g) := by
  intro i
  rw [BitVec.getLsbD_or, groupBit_getLsbD, Bool.true_and]

/-- What an entry holds back (R35, R46). -/
theorem noteEntry_marks (p : EventParts) (g : GroupNo) (b : Bool) :
    Marked g (p.sequencer && true) p.heldTimers (p.noteEntry g b).heldTimers ∧
    Marked g (p.sequencer && b) p.heldElapsed (p.noteEntry g b).heldElapsed ∧
    Marked g (p.sequencer && true) p.heldAges (p.noteEntry g b).heldAges := by
  unfold EventParts.noteEntry
  cases p.sequencer
  · exact ⟨.refl _ _, .refl _ _, .refl _ _⟩
  · cases b
    · exact ⟨.setBit _ _, .refl _ _, .setBit _ _⟩
    · exact ⟨.setBit _ _, .setBit _ _, .setBit _ _⟩

@[simp] theorem noteEntry_heldModeTimer (p : EventParts) (g : GroupNo) (b : Bool) :
    (p.noteEntry g b).heldModeTimer = p.heldModeTimer := by
  unfold EventParts.noteEntry; split <;> rfl

/-- A group's entry into a state (R7, R8, R9, R21). -/
theorem enterGroup_turn (g : GroupNo) (st : GroupState) (elapsed : Option Nat) (held : Bool) (s : State) :
    Turn g (.enter s g (s.group g) st elapsed held) s (enterGroup g st elapsed held s) where
  moves := enterGroup_moves g st elapsed held s
  group := enterGroup_group g st elapsed held s
  queue := rfl
  timers := (noteEntry_marks s.parts g _).1
  elapsed := (noteEntry_marks s.parts g _).2.1
  ages := (noteEntry_marks s.parts g _).2.2
  calls := by intro i; simp [Effect.enter]
  mode := .inl ⟨rfl, noteEntry_heldModeTimer s.parts g _⟩

/-- All the mode controller makes of a report that a group has entered STOP (R47, R52, R57). -/
theorem startStoppedTimer_cases (s : State) :
    (s.stopping ∧ s.mode.running = false ∧ s.allStopped = true ∧ TimerStarted s (startStoppedTimer s)) ∨
    (¬(s.stopping ∧ s.mode.running = false ∧ s.allStopped = true) ∧ startStoppedTimer s = s) := by
  by_cases h : s.stopping ∧ s.mode.running = false ∧ s.allStopped = true
  · refine .inl ⟨h.1, h.2.1, h.2.2, ?_⟩
    have e : startStoppedTimer s = { s with
        mode := { s.mode with running := true, allStopTimer := 0, flashEntryTimer := 0 }
        parts := { s.parts with heldModeTimer := s.parts.modeTimer } } := if_pos h
    rw [e]
    exact ⟨rfl, rfl⟩
  · exact .inr ⟨h, if_neg h⟩

theorem startStoppedTimer_turn (g : GroupNo) (s : State) : Turn g (.stay (s.group g)) s (startStoppedTimer s) := by
  rcases startStoppedTimer_cases s with ⟨h1, -, -, h4⟩ | ⟨-, e⟩
  · refine ⟨startStoppedTimer_moves g s, startStoppedTimer_group s g, startStoppedTimer_queue s, ?_, ?_, ?_, ?_, .inr ⟨h1, h4⟩⟩ <;>
      intro i <;> unfold startStoppedTimer <;> split <;> simp [Effect.stay]
  · rw [e]; exact .refl g s

theorem Effect.andThen_stay (e : Effect) : e.andThen (.stay e.group) = e := by simp [Effect.andThen, Effect.stay]

/-- An entry into STOP, reported to the mode controller (R46). -/
theorem enterStop_turn (g : GroupNo) (elapsed : Option Nat) (s : State) :
    Turn g (.enter s g (s.group g) .stop elapsed false) s (enterStop g elapsed s) := by
  have h := enterGroup_turn g .stop elapsed false s
  have k := h.andThen (startStoppedTimer_turn g _)
  rwa [h.group, Effect.andThen_stay] at k

/-! ### Sweeps -/

/-- A pass from `s` to `t` over the groups of a list, in which each group's turn has its effect. -/
structure Pass (l : List GroupNo) (eff : GroupNo → Effect) (s t : State) : Prop where
  frame : GroupFrame s t
  group : ∀ g ∈ l, t.group g = (eff g).group
  others : ∀ g, g ∉ l → t.group g = s.group g
  queue : t.queue = s.queue.submits (l.flatMap fun g => (eff g).records)
  timers : ∀ g : GroupNo, t.parts.heldTimers.getLsbD g.val =
    (s.parts.heldTimers.getLsbD g.val || (s.parts.sequencer && decide (g ∈ l) && (eff g).timers))
  elapsed : ∀ g : GroupNo, t.parts.heldElapsed.getLsbD g.val =
    (s.parts.heldElapsed.getLsbD g.val || (s.parts.sequencer && decide (g ∈ l) && (eff g).elapsed))
  ages : ∀ g : GroupNo, t.parts.heldAges.getLsbD g.val =
    (s.parts.heldAges.getLsbD g.val || (s.parts.sequencer && decide (g ∈ l) && (eff g).ages))
  calls : ∀ g : GroupNo, t.detectors.calls.getLsbD g.val =
    if g ∈ l ∧ (eff g).calls = true then s.standing.getLsbD g.val else s.detectors.calls.getLsbD g.val
  mode : TimerMove s t

/-- The bits of a mask after one turn and then a pass over other groups. -/
theorem Marked.pass {a g : GroupNo} {l : List GroupNo} (ha : a ∉ l) {q : Bool} {b : GroupNo → Bool} {m n : Mask} {k : Bool}
    (h : Marked a (q && b a) m n) (hk : k = (n.getLsbD g.val || (q && decide (g ∈ l) && b g))) :
    k = (m.getLsbD g.val || (q && decide (g ∈ a :: l) && b g)) := by
  rw [hk, h g]
  by_cases e : a = g
  · subst e; simp [ha]
  · have e' : ¬g = a := fun x => e x.symm
    simp [e, e']

/-- A fold whose turns have, from every state that differs from the start by moves of other groups, the effects `eff` is a pass. -/
theorem foldl_pass {eff : GroupNo → Effect} {s : State} {f : State → GroupNo → State}
    (hf : ∀ g s', GroupFrame s s' → s'.group g = s.group g → Turn g (eff g) s' (f s' g)) :
    ∀ (l : List GroupNo) (s' : State), l.Nodup → GroupFrame s s' → (∀ g ∈ l, s'.group g = s.group g) →
      Pass l eff s' (l.foldl f s') := by
  intro l
  induction l with
  | nil =>
    intro s' _ _ _
    exact ⟨.refl _, (fun _ h => nomatch h), fun _ _ => rfl, rfl, fun _ => by simp, fun _ => by simp, fun _ => by simp, fun _ => by simp,
      .inl (.refl _)⟩
  | cons a l ih =>
    intro s' hn hs hg
    obtain ⟨ha, hl⟩ := List.nodup_cons.mp hn
    have h := hf a s' hs (hg a List.mem_cons_self)
    have k := ih (f s' a) hl (hs.trans h.frame) fun g hm =>
      (h.moves.2 g fun e => ha (e ▸ hm)).trans (hg g (List.mem_cons_of_mem _ hm))
    have hq := h.frame.sequencer
    refine ⟨h.frame.trans k.frame, fun g hm => ?_, fun g hm => ?_, ?_, fun g => ?_, fun g => ?_, fun g => ?_, fun g => ?_,
      h.mode.trans h.frame.modeTimerPart k.mode⟩
    · rcases List.mem_cons.mp hm with rfl | hm
      · exact (k.others g ha).trans h.group
      · exact k.group g hm
    · exact (k.others g fun x => hm (List.mem_cons_of_mem _ x)).trans (h.moves.2 g fun e => hm (e ▸ List.mem_cons_self))
    · rw [List.foldl_cons, k.queue, h.queue, ← Queue.submits_append, List.flatMap_cons]
    · exact h.timers.pass (b := fun g => (eff g).timers) ha (by rw [← hq]; exact k.timers g)
    · exact h.elapsed.pass (b := fun g => (eff g).elapsed) ha (by rw [← hq]; exact k.elapsed g)
    · exact h.ages.pass (b := fun g => (eff g).ages) ha (by rw [← hq]; exact k.ages g)
    · rw [List.foldl_cons, k.calls g, h.calls g, h.frame.standing]
      by_cases e : a = g
      · subst e; simp [ha]
      · have e' : ¬g = a := fun x => e x.symm
        simp [e, e']

/-- An effect that a configured group alone takes. -/
def Effect.onConfigured (s : State) (g : GroupNo) (e : Effect) : Effect := if s.configured g then e else .stay (s.group g)

/-- A sweep from `s` to `t`: a pass over the configured groups in ascending number. -/
def Sweep (eff : GroupNo → Effect) (s t : State) : Prop :=
  Pass (List.finRange 32) (fun g => (eff g).onConfigured s g) s t

/-- A sweep has the effects that its turns have from every state that differs from the start by moves of other groups. -/
theorem forGroups_sweep {eff : GroupNo → Effect} {s : State} {f : GroupNo → State → State}
    (hf : ∀ g s', s.configured g = true → GroupFrame s s' → s'.group g = s.group g → Turn g (eff g) s' (f g s')) :
    Sweep eff s (forGroups f s) := by
  refine foldl_pass (fun g s' hs hg => ?_) _ s (List.nodup_finRange 32) (.refl s) fun _ _ => rfl
  rw [hs.configured, Effect.onConfigured]
  split
  · rename_i hc; exact hf g s' hc hs hg
  · rw [← hg]; exact .refl g s'

theorem Sweep.group {eff : GroupNo → Effect} {s t : State} (h : Sweep eff s t) {g : GroupNo} (hg : s.configured g = true) :
    t.group g = (eff g).group := by
  rw [Pass.group h g (List.mem_finRange g), Effect.onConfigured, if_pos hg]

theorem Sweep.unconfigured {eff : GroupNo → Effect} {s t : State} (h : Sweep eff s t) {g : GroupNo} (hg : s.configured g = false) :
    t.group g = s.group g := by
  rw [Pass.group h g (List.mem_finRange g), Effect.onConfigured, hg]; rfl

/-- The records of a sweep, in ascending group number. -/
def sweepRecords (s : State) (eff : GroupNo → Effect) : List Said :=
  (List.finRange 32).flatMap fun g => if s.configured g then (eff g).records else []

theorem Sweep.queue {eff : GroupNo → Effect} {s t : State} (h : Sweep eff s t) : t.queue = s.queue.submits (sweepRecords s eff) := by
  rw [Pass.queue h, sweepRecords]
  congr 2; funext g
  unfold Effect.onConfigured; split <;> rfl

theorem Sweep.timers {eff : GroupNo → Effect} {s t : State} (h : Sweep eff s t) (g : GroupNo) : t.parts.heldTimers.getLsbD g.val =
    (s.parts.heldTimers.getLsbD g.val || (s.parts.sequencer && (s.configured g && (eff g).timers))) := by
  rw [Pass.timers h g]
  unfold Effect.onConfigured
  cases hc : s.configured g <;> simp [Effect.stay]

theorem Sweep.elapsed {eff : GroupNo → Effect} {s t : State} (h : Sweep eff s t) (g : GroupNo) : t.parts.heldElapsed.getLsbD g.val =
    (s.parts.heldElapsed.getLsbD g.val || (s.parts.sequencer && (s.configured g && (eff g).elapsed))) := by
  rw [Pass.elapsed h g]
  unfold Effect.onConfigured
  cases hc : s.configured g <;> simp [Effect.stay]

theorem Sweep.ages {eff : GroupNo → Effect} {s t : State} (h : Sweep eff s t) (g : GroupNo) : t.parts.heldAges.getLsbD g.val =
    (s.parts.heldAges.getLsbD g.val || (s.parts.sequencer && (s.configured g && (eff g).ages))) := by
  rw [Pass.ages h g]
  unfold Effect.onConfigured
  cases hc : s.configured g <;> simp [Effect.stay]

theorem Sweep.calls {eff : GroupNo → Effect} {s t : State} (h : Sweep eff s t) {g : GroupNo} (hg : s.configured g = true) :
    t.detectors.calls.getLsbD g.val = if (eff g).calls then s.standing.getLsbD g.val else s.detectors.calls.getLsbD g.val := by
  rw [Pass.calls h g, Effect.onConfigured, if_pos hg]; simp

/-- Where no member of a list gives more than `n` records, the list gives no more than that for each. -/
theorem length_flatMap_le {α β : Type} {n : Nat} {f : α → List β} (h : ∀ a, (f a).length ≤ n) (l : List α) :
    (l.flatMap f).length ≤ l.length * n := by
  induction l with
  | nil => simp
  | cons a l ih =>
    have := h a
    rw [List.flatMap_cons, List.length_append, List.length_cons, Nat.add_mul]
    omega

/-- Where no turn submits more than `n` records, a sweep submits no more than that for each group. -/
theorem sweepRecords_length {n : Nat} {s : State} {eff : GroupNo → Effect}
    (h : ∀ g, s.configured g = true → (eff g).records.length ≤ n) : (sweepRecords s eff).length ≤ 32 * n := by
  have hl : ∀ g, (if s.configured g then (eff g).records else []).length ≤ n := fun g => by
    split
    · rename_i hc; exact h g hc
    · simp
  have h32 := length_flatMap_le hl (List.finRange 32)
  rw [List.length_finRange] at h32
  exact h32

/-- A record of a configured group's turn is a record of the sweep. -/
theorem mem_sweepRecords {s : State} {eff : GroupNo → Effect} {g : GroupNo} (hg : s.configured g = true) {c : Said}
    (hc : c ∈ (eff g).records) : c ∈ sweepRecords s eff :=
  List.mem_flatMap.mpr ⟨g, List.mem_finRange g, by rwa [if_pos hg]⟩

theorem sweepRecords_filter (s : State) (eff : GroupNo → Effect) (p : Said → Bool) : (sweepRecords s eff).filter p =
    (List.finRange 32).flatMap fun g => if s.configured g then (eff g).records.filter p else [] := by
  rw [sweepRecords, List.filter_flatMap]
  congr 1; funext g
  split <;> simp

end Sys2Proof.Machine

/-! PROOFS. The effect of each operation of the group sequencer on a group whose record is `x`, and that the operation's turn has it. An effect
reads of the state what no move of groups changes. -/

namespace Sys2Proof.Machine

open Sys2Proof

@[simp] theorem Effect.stay_andThen (x : Group) (e : Effect) : (Effect.stay x).andThen e = e := by
  simp [Effect.andThen, Effect.stay]

/-! ### The effects -/

/-- The hold rule (R62). -/
def holdEffect (s : State) (g : GroupNo) (x : Group) : Effect :=
  if s.holdsAct = true ∧ s.heldByLine g = true then
    match x.state with
    | .go => .enter s g x .clearing (some 0) false
    | .prepare => .enter s g x .stop none false
    | _ => .stay x
  else .stay x

/-- The call-clear of a group's entry to GO (R123). -/
def callClear (x : Group) : Effect := ⟨x, [], false, false, false, true⟩

/-- An entry to GO as it is reported, before the hold rule (R16, R123). -/
def goEntry (s : State) (g : GroupNo) (x : Group) : Effect :=
  let e := Effect.enter s g x .go none x.lateCancel
  e.andThen (callClear e.group)

/-- An entry to GO (R16, R62). -/
def goEffect (s : State) (g : GroupNo) (x : Group) : Effect := (goEntry s g x).andThen (holdEffect s g (goEntry s g x).group)

/-- An entry to PREPARE by a grant (R14, R62). -/
def prepareEffect (s : State) (g : GroupNo) (x : Group) : Effect :=
  let e := Effect.enter s g x .prepare none false
  e.andThen (holdEffect s g e.group)

/-- A grant (R14). -/
def grantEffect (s : State) (g : GroupNo) (x : Group) : Effect :=
  if 0 < s.prepareTime g then prepareEffect s g x else goEffect s g x

/-- An order into FLASHING or UNLIT (R8, R21). -/
def orderEffect (st : GroupState) (s : State) (g : GroupNo) (x : Group) : Effect :=
  if x.state = st then .stay x else .enter s g x st none false

/-- The order of ALL_STOP entry (R51). -/
def allStopEffect (s : State) (g : GroupNo) (x : Group) : Effect :=
  if (s.record g).aspect = 1 then .enter s g x .clearing (some 0) false else .enter s g x .stop (some 0) false

/-- A request age set to 0 (R12, R29). -/
def ageEffect (x : Group) : Effect := ⟨{ x with age := 0 }, [], false, false, true, false⟩

/-- A request set (R13, R15, R17). -/
def setEffect (x : Group) : Effect :=
  match x.state with
  | .stop => ageEffect x
  | _ => .stay (afterSet x)

/-- A LATE_CANCEL or STOP_HELD record, with what is left of P or of MG (R15, R17). -/
def requestRecord (s : State) (g : GroupNo) (kind : EventKind) (left : Nat) : Said :=
  (kind, lowWord s.clock, subjectOf g.val, BitVec.ofNat 16 left)

/-- A request cleared (R13, R15, R17). -/
def clearedEffect (s : State) (g : GroupNo) (x : Group) : Effect :=
  match x.state with
  | .stop => ageEffect x
  | .prepare => ⟨{ x with lateCancel := true }, [requestRecord s g .lateCancel (s.prepareTime g - x.prepareTimer)], false, false, false, false⟩
  | .go =>
    if s.minimumGo g ≤ x.goTimer then .enter s g x .clearing (some 0) false
    else ⟨{ x with heldStop := true }, [requestRecord s g .stopHeld (s.minimumGo g - x.goTimer)], false, false, false, false⟩
  | _ => .stay x

/-- The start of the treatment of a request as clear (R56). -/
def endEffect (s : State) (g : GroupNo) (x : Group) : Effect :=
  if s.goMask.getLsbD g.val then clearedEffect s g x else .stay x

/-- TO_FLASH entry, for one group (R56, R62). -/
def toFlashEffect (s : State) (g : GroupNo) (x : Group) : Effect :=
  (endEffect s g x).andThen (holdEffect s g (endEffect s g x).group)

/-- A change of the GO mask handed to the group: from `old` to the mask of `s` (R90). -/
def changeEffect (old : Mask) (s : State) (g : GroupNo) (x : Group) : Effect :=
  if s.goMask.getLsbD g.val = old.getLsbD g.val then .stay x
  else if s.goMask.getLsbD g.val then setEffect x else clearedEffect s g x

/-- The expiry rule of the state (R16, R18, R20). -/
def expireEffect (s : State) (g : GroupNo) (x : Group) : Effect :=
  match x.state with
  | .prepare => if s.prepareTime g ≤ x.prepareTimer then goEffect s g x else .stay x
  | .go => if s.minimumGo g ≤ x.goTimer ∧ x.heldStop = true then .enter s g x .clearing (some 0) false else .stay x
  | .clearing => if s.clearingTime g ≤ x.clearingTimer then .enter s g x .stop none false else .stay x
  | _ => .stay x

/-- A group's E and request age after a decisecond event (R11, R12). -/
def counted (s : State) (p : EventParts) (g : GroupNo) (x : Group) : Group :=
  { x with elapsed := nextElapsed p g x, age := nextAge p g (decide (x.state = .stop) && s.requested g) x }

/-- The sequencer's step, for one group (R10). -/
def stepEffect (p : EventParts) (s : State) (g : GroupNo) (x : Group) : Effect :=
  if p.heldTimers.getLsbD g.val then .stay (counted s p g x) else expireEffect s g (advanceTimer (counted s p g x))

/-! ### The operations' turns -/

section

variable {s t : State} {g : GroupNo} {x : Group} (h : GroupFrame s t) (hx : t.group g = x)
include h hx

theorem enterGroup_turn_of (st : GroupState) (elapsed : Option Nat) (held : Bool) :
    Turn g (.enter s g x st elapsed held) t (enterGroup g st elapsed held t) := by
  have k := enterGroup_turn g st elapsed held t
  rwa [hx, show Effect.enter t g x st elapsed held = Effect.enter s g x st elapsed held by
    simp only [Effect.enter, groupRecord, h.clock]] at k

theorem enterStop_turn_of (elapsed : Option Nat) : Turn g (.enter s g x .stop elapsed false) t (enterStop g elapsed t) := by
  have k := enterStop_turn g elapsed t
  rwa [hx, show Effect.enter t g x .stop elapsed false = Effect.enter s g x .stop elapsed false by
    simp only [Effect.enter, groupRecord, h.clock]] at k

theorem enterClearing_turn : Turn g (.enter s g x .clearing (some 0) false) t (enterClearing g t) :=
  enterGroup_turn_of h hx .clearing (some 0) false

omit h in
theorem stay_turn : Turn g (.stay x) t t := hx ▸ Turn.refl g t

theorem holdRule_turn (hc : s.configured g = true) : Turn g (holdEffect s g x) t (holdRule g t) := by
  unfold holdEffect holdRule
  rw [h.holdsAct, h.heldByLine, h.configured, hx]
  by_cases hh : s.holdsAct = true ∧ s.heldByLine g = true
  · rw [if_pos hh, if_pos ⟨hh.1, hc, hh.2⟩]
    obtain ⟨_ | _ | _ | _ | _ | _, _, _, _, _, _, _, _⟩ := x
    · exact stay_turn hx
    · exact stay_turn hx
    · exact stay_turn hx
    · exact enterStop_turn_of h hx none
    · exact enterClearing_turn h hx
    · exact stay_turn hx
  · rw [if_neg hh, if_neg fun k => hh ⟨k.1, k.2.2⟩]
    exact stay_turn hx

theorem enterGo_turn (hc : s.configured g = true) : Turn g (goEffect s g x) t (enterGo g t) := by
  have h1 := enterGroup_turn_of h hx .go none x.lateCancel
  have h2 : Turn g (callClear (Effect.enter s g x .go none x.lateCancel).group) _ _ := h1.group ▸ clearCalls_turn g _
  have h3 := h1.andThen h2
  have h4 := h3.andThen (holdRule_turn (h.trans h3.frame) h3.group hc)
  unfold enterGo
  rw [hx]; exact h4

theorem enterPrepare_turn (hc : s.configured g = true) : Turn g (prepareEffect s g x) t (enterPrepare g t) := by
  have h1 := enterGroup_turn_of h hx .prepare none false
  exact h1.andThen (holdRule_turn (h.trans h1.frame) h1.group hc)

theorem grant_turn (hc : s.configured g = true) : Turn g (grantEffect s g x) t (grant g t) := by
  unfold grantEffect grant
  rw [h.prepareTime]
  split
  · exact enterPrepare_turn h hx hc
  · exact enterGo_turn h hx hc

theorem orderGroup_turn (st : GroupState) : Turn g (orderEffect st s g x) t (orderGroup st g t) := by
  unfold orderEffect orderGroup
  rw [hx]
  split
  · exact stay_turn hx
  · exact enterGroup_turn_of h hx st none false

theorem allStopOrder_turn : Turn g (allStopEffect s g x) t (allStopOrder g t) := by
  unfold allStopEffect allStopOrder
  rw [h.record]
  split
  · exact enterClearing_turn h hx
  · exact enterStop_turn_of h hx (some 0)

omit h in
theorem resetAge_turn : Turn g (ageEffect x) t (resetAge g t) := by
  subst hx
  have k := setGroup_turn g { t.group g with age := 0 } t
  rcases hs : t.parts.sequencer with _ | _
  · have e : resetAge g t = t.setGroup g { t.group g with age := 0 } := by simp [resetAge, hs]
    rw [e]
    exact { k with ages := by rw [hs]; exact .refl _ _ }
  · have e : resetAge g t = { t.setGroup g { t.group g with age := 0 } with
        parts := { t.parts with heldAges := t.parts.heldAges ||| groupBit g } } := by simp [resetAge, hs]
    refine ⟨resetAge_moves g t, ?_, ?_, ?_, ?_, ?_, ?_, .inl ?_⟩ <;> rw [e]
    · exact k.group
    · exact k.queue
    · exact k.timers
    · exact k.elapsed
    · rw [hs]; exact .setBit _ _
    · exact k.calls
    · exact ⟨rfl, rfl⟩

omit h in
theorem requestSet_turn : Turn g (setEffect x) t (requestSet g t) := by
  unfold setEffect requestSet
  rw [hx]
  obtain ⟨_ | _ | _ | _ | _ | _, _, _, _, _, _, _, _⟩ := x
  · exact stay_turn hx
  · exact stay_turn hx
  · exact resetAge_turn hx
  · exact setGroup_turn g _ t
  · exact setGroup_turn g _ t
  · exact stay_turn hx

omit hx in
/-- A flag set on a group's record, with the record that goes with it. -/
theorem flag_turn (y : Group) (k : EventKind) (left : Nat) :
    Turn g ⟨y, [requestRecord s g k left], false, false, false, false⟩ t
      (submit k (BitVec.ofNat 8 g.val) (BitVec.ofNat 16 left) (t.setGroup g y)) := by
  have h1 := setGroup_turn g y t
  have h2 := h1.andThen (submit_turn g k (BitVec.ofNat 8 g.val) (BitVec.ofNat 16 left) (t.setGroup g y))
  rw [h1.group] at h2
  unfold requestRecord subjectOf
  rw [← h.clock]; exact h2

theorem requestCleared_turn : Turn g (clearedEffect s g x) t (requestCleared g t) := by
  unfold clearedEffect requestCleared
  rw [hx, h.prepareTime, h.minimumGo]
  obtain ⟨_ | _ | _ | _ | _ | _, _, _, _, _, _, _, _⟩ := x
  · exact stay_turn hx
  · exact stay_turn hx
  · exact resetAge_turn hx
  · exact flag_turn h _ _ _
  · show Turn g (if _ then _ else _) t (if _ then _ else _)
    split
    · exact enterClearing_turn h hx
    · exact flag_turn h _ _ _
  · exact stay_turn hx

theorem endRequest_turn : Turn g (endEffect s g x) t (endRequest g t) := by
  unfold endEffect endRequest
  rw [h.goMask]
  split
  · exact requestCleared_turn h hx
  · exact stay_turn hx

theorem toFlashTurn_turn (hc : s.configured g = true) : Turn g (toFlashEffect s g x) t (toFlashTurn g t) := by
  have h1 := endRequest_turn h hx
  exact h1.andThen (holdRule_turn (h.trans h1.frame) h1.group hc)

theorem expireTimer_turn (hc : s.configured g = true) : Turn g (expireEffect s g x) t (expireTimer g t) := by
  unfold expireEffect expireTimer
  rw [hx, h.prepareTime, h.minimumGo, h.clearingTime]
  obtain ⟨_ | _ | _ | _ | _ | _, _, _, _, _, _, _, _⟩ := x
  · exact stay_turn hx
  · exact stay_turn hx
  · exact stay_turn hx
  · show Turn g (if _ then _ else _) t (if _ then _ else _)
    split
    · exact enterGo_turn h hx hc
    · exact stay_turn hx
  · show Turn g (if _ then _ else _) t (if _ then _ else _)
    split
    · exact enterClearing_turn h hx
    · exact stay_turn hx
  · show Turn g (if _ then _ else _) t (if _ then _ else _)
    split
    · exact enterStop_turn_of h hx none
    · exact stay_turn hx

theorem advanceCounts_turn (p : EventParts) : Turn g (.stay (counted s p g x)) t (advanceCounts p g t) := by
  subst hx
  unfold advanceCounts counted
  dsimp only
  rw [State.isPending, h.requested]
  exact setGroup_turn g _ t

theorem stepGroup_turn (p : EventParts) (hc : s.configured g = true) : Turn g (stepEffect p s g x) t (stepGroup p g t) := by
  have h1 := advanceCounts_turn h hx p
  unfold stepEffect stepGroup
  dsimp only
  split
  · exact h1
  · have h2 := setGroup_turn g (advanceTimer ((advanceCounts p g t).group g)) (advanceCounts p g t)
    have h3 := h1.andThen (h2.andThen (expireTimer_turn (h.trans (h1.andThen h2).frame) h2.group hc))
    rw [Effect.stay_andThen, Effect.stay_andThen] at h3
    rw [h1.group] at h3 ⊢
    exact h3

end

/-! ### The sweeps -/

theorem holdSweep_sweep (s : State) : Sweep (fun g => holdEffect s g (s.group g)) s (holdSweep s) :=
  forGroups_sweep fun _ _ hc h hx => holdRule_turn h hx hc

theorem orderAll_sweep (st : GroupState) (s : State) : Sweep (fun g => orderEffect st s g (s.group g)) s (orderAll st s) :=
  forGroups_sweep fun _ _ _ h hx => orderGroup_turn h hx st

theorem allStopOrders_sweep (s : State) : Sweep (fun g => allStopEffect s g (s.group g)) s (forGroups allStopOrder s) :=
  forGroups_sweep fun _ _ _ h hx => allStopOrder_turn h hx

theorem stepGroups_sweep (p : EventParts) (s : State) : Sweep (fun g => stepEffect p s g (s.group g)) s (forGroups (stepGroup p) s) :=
  forGroups_sweep fun _ _ hc h hx => stepGroup_turn h hx p hc

/-- The effect of an evaluation that grants the groups of a list (R38). -/
def grantsEffect (granted : List GroupNo) (s : State) (g : GroupNo) : Effect :=
  if granted.elem g then grantEffect s g (s.group g) else .stay (s.group g)

/-- The grants of an evaluation (R38). -/
theorem grants_sweep (granted : List GroupNo) (s : State) :
    Sweep (grantsEffect granted s) s (forGroups (fun g s => if granted.elem g then grant g s else s) s) :=
  forGroups_sweep fun g _ hc h hx => by
    unfold grantsEffect
    split
    · exact grant_turn h hx hc
    · exact stay_turn hx

/-- The changes of a GO-mask write, outside TO_FLASH (R90). -/
theorem handChanges_sweep (old : Mask) (s : State) (hm : s.mode.mode ≠ .toFlash) :
    Sweep (fun g => changeEffect old s g (s.group g)) s (handChanges old s) := by
  unfold handChanges
  rw [if_neg hm]
  refine forGroups_sweep fun g _ _ h hx => ?_
  unfold changeEffect
  split
  · exact stay_turn hx
  · split
    · exact requestSet_turn hx
    · exact requestCleared_turn h hx

end Sys2Proof.Machine

/-! PROOFS. The stopped modes' timers over moves of groups (R52, R57), and the frame of a whole command that moves groups. -/

namespace Sys2Proof.Machine

open Sys2Proof

/-! ### The start of the stopped modes' timers -/

theorem allStopped_iff (s : State) : s.allStopped = true ↔ ∀ g, s.configured g = true → (s.group g).state = .stop := by
  simp only [State.allStopped, List.all_eq_true, List.mem_finRange, true_implies, Bool.or_eq_true, Bool.not_eq_true', decide_eq_true_iff]
  refine forall_congr' fun g => ?_
  rcases s.configured g <;> simp

theorem lastEntersStop_iff (s t : State) : lastEntersStop s t = true ↔
    s.stopping ∧ s.mode.running = false ∧ s.allStopped = false ∧ t.allStopped = true := by
  simp [lastEntersStop, State.stopping, and_assoc]

/-- Moves of groups from `s` to `t` in the stopped modes: none leaves STOP, and the timer of the mode starts exactly where the last configured
group enters STOP. -/
structure StopLaw (s t : State) : Prop where
  kept : s.stopping → ∀ g, s.configured g = true → (s.group g).state = .stop → (t.group g).state = .stop
  starts : lastEntersStop s t = true → TimerStarted s t
  stands : lastEntersStop s t = false → TimerStands s t

theorem GroupFrame.stopping {s t : State} (h : GroupFrame s t) : t.stopping ↔ s.stopping := by
  unfold State.stopping; rw [h.modeMode]

/-- Where no group leaves STOP, all stay stopped. -/
theorem StopLaw.allStopped {s t : State} (hf : GroupFrame s t) (h : StopLaw s t) (hs : s.stopping) (ha : s.allStopped = true) :
    t.allStopped = true := by
  rw [allStopped_iff] at *
  exact fun g hg => h.kept hs g (hf.configured g ▸ hg) (ha g (hf.configured g ▸ hg))

theorem StopLaw.refl (s : State) : StopLaw s s where
  kept := fun _ _ _ => id
  starts := fun h => by
    obtain ⟨-, -, h1, h2⟩ := (lastEntersStop_iff s s).1 h
    rw [h1] at h2; exact absurd h2 (by simp)
  stands := fun _ => .refl s

theorem TimerStarted.trans_stands {s t u : State} (h : TimerStarted s t) (k : TimerStands t u) : TimerStarted s u :=
  ⟨k.mode.trans h.mode, k.heldModeTimer.trans h.heldModeTimer⟩

theorem StopLaw.trans {s t u : State} (hf : GroupFrame s t) (hk : GroupFrame t u) (h : StopLaw s t) (k : StopLaw t u) : StopLaw s u := by
  have kept : s.stopping → ∀ g, s.configured g = true → (s.group g).state = .stop → (u.group g).state = .stop := fun hs g hg hst =>
    k.kept (hf.stopping.2 hs) g ((hf.configured g).trans hg) (h.kept hs g hg hst)
  rcases hst : lastEntersStop s t with _ | _
  · have h1 := h.stands hst
    rcases htu : lastEntersStop t u with _ | _
    · have h2 := k.stands htu
      refine ⟨kept, fun hsu => ?_, fun _ => h1.trans h2⟩
      obtain ⟨a, b, c, d⟩ := (lastEntersStop_iff s u).1 hsu
      have ht : ¬t.allStopped = true := fun x => by
        rw [(lastEntersStop_iff s t).2 ⟨a, b, c, x⟩] at hst; exact absurd hst (by simp)
      rw [(lastEntersStop_iff t u).2 ⟨hf.stopping.2 a, h1.mode ▸ b, by simpa using ht, d⟩] at htu
      exact absurd htu (by simp)
    · have h2 := k.starts htu
      obtain ⟨a, b, c, d⟩ := (lastEntersStop_iff t u).1 htu
      have hs := hf.stopping.1 a
      have hsa : s.allStopped = false := by
        by_contra x
        rw [h.allStopped hf hs (by simpa using x)] at c; exact absurd c (by simp)
      refine ⟨kept, fun _ => ⟨by rw [h2.mode, h1.mode], by rw [h2.heldModeTimer, hf.modeTimerPart]⟩, fun x => ?_⟩
      rw [(lastEntersStop_iff s u).2 ⟨hs, h1.mode ▸ b, hsa, d⟩] at x; exact absurd x (by simp)
  · have h1 := h.starts hst
    obtain ⟨a, b, c, d⟩ := (lastEntersStop_iff s t).1 hst
    have h2 := k.stands (by
      by_contra x
      obtain ⟨-, -, y, -⟩ := (lastEntersStop_iff t u).1 (by simpa using x)
      rw [d] at y; exact absurd y (by simp))
    refine ⟨kept, fun _ => h1.trans_stands h2, fun x => ?_⟩
    rw [(lastEntersStop_iff s u).2 ⟨a, b, c, k.allStopped hk (hf.stopping.2 a) d⟩] at x; exact absurd x (by simp)

/-- A turn that does not reach the mode controller and neither enters nor leaves STOP. -/
theorem stopLaw_of_stands {g : GroupNo} {s t : State} (hm : MovesOnly g s t) (ht : TimerStands s t)
    (hst : (t.group g).state = .stop ↔ (s.group g).state = .stop) : StopLaw s t := by
  have hall : ∀ i, (t.group i).state = .stop ↔ (s.group i).state = .stop := fun i => by
    by_cases e : i = g
    · rw [e]; exact hst
    · rw [hm.2 i e]
  refine ⟨fun _ i _ h => (hall i).2 h, fun h => ?_, fun _ => ht⟩
  obtain ⟨-, -, h1, h2⟩ := (lastEntersStop_iff s t).1 h
  have : s.allStopped = true := by
    rw [allStopped_iff] at h2 ⊢
    exact fun i hi => (hall i).1 (h2 i ((hm.1.configured i).trans hi))
  rw [h1] at this; exact absurd this (by simp)

/-- Outside the stopped modes no timer of theirs starts. -/
theorem stopLaw_of_not_stopping {s t : State} (hs : ¬s.stopping) (h : TimerMove s t) : StopLaw s t where
  kept := fun k => absurd k hs
  starts := fun k => absurd ((lastEntersStop_iff s t).1 k).1 hs
  stands := fun _ => h.resolve_right fun k => hs k.1

theorem setGroup_stands (g : GroupNo) (x : Group) (s : State) : TimerStands s (s.setGroup g x) := ⟨rfl, rfl⟩

theorem enterGroup_stands (g : GroupNo) (st : GroupState) (e : Option Nat) (b : Bool) (s : State) :
    TimerStands s (enterGroup g st e b s) := ⟨rfl, noteEntry_heldModeTimer s.parts g _⟩

/-- An entry to a state other than STOP, from another. -/
theorem enterGroup_stopLaw {g : GroupNo} {st : GroupState} {s : State} (e : Option Nat) (b : Bool) (hn : st ≠ .stop)
    (ho : (s.group g).state ≠ .stop) : StopLaw s (enterGroup g st e b s) :=
  stopLaw_of_stands (enterGroup_moves g st e b s) (enterGroup_stands g st e b s) (by simp [hn, ho])

theorem enterClearing_stopLaw {g : GroupNo} {s : State} (ho : (s.group g).state ≠ .stop) : StopLaw s (enterClearing g s) :=
  enterGroup_stopLaw (some 0) false (by simp) ho

/-- An entry to STOP: the report of the last one starts the timer (R52, R57). -/
theorem enterStop_stopLaw {g : GroupNo} {s : State} (e : Option Nat) (hc : s.configured g = true) (ho : (s.group g).state ≠ .stop) :
    StopLaw s (enterStop g e s) := by
  have hf : GroupFrame s (enterGroup g .stop e false s) := (enterGroup_moves g .stop e false s).1
  have hs := enterGroup_stands g .stop e false s
  have hsa : s.allStopped = false := by
    by_contra x
    exact ho ((allStopped_iff s).1 (by simpa using x) g hc)
  have ht : (enterStop g e s).allStopped = (enterGroup g .stop e false s).allStopped := by
    rw [Bool.eq_iff_iff, allStopped_iff, allStopped_iff]
    simp only [enterStop, startStoppedTimer_group, (startStoppedTimer_moves g _).1.configured]
  have hl : lastEntersStop s (enterStop g e s) = true ↔ (enterGroup g .stop e false s).stopping ∧
      (enterGroup g .stop e false s).mode.running = false ∧ (enterGroup g .stop e false s).allStopped = true := by
    rw [lastEntersStop_iff, ht, hf.stopping, hs.mode, hsa]; simp
  refine ⟨fun _ i _ hi => ?_, fun h => ?_, fun h => ?_⟩
  · by_cases ei : i = g
    · rw [ei]; simp
    · rw [(enterStop_moves g e s).2 i ei]; exact hi
  · rcases startStoppedTimer_cases (enterGroup g .stop e false s) with ⟨-, -, -, k⟩ | ⟨k, -⟩
    · exact ⟨by rw [enterStop, k.mode, hs.mode], by rw [enterStop, k.heldModeTimer, hf.modeTimerPart]⟩
    · exact absurd (hl.1 h) k
  · rcases startStoppedTimer_cases (enterGroup g .stop e false s) with ⟨a, b, c, -⟩ | ⟨-, k⟩
    · rw [hl.2 ⟨a, b, c⟩] at h; exact absurd h (by simp)
    · rw [enterStop, k]; exact hs

theorem holdRule_stopLaw {g : GroupNo} (s : State) : StopLaw s (holdRule g s) := by
  unfold holdRule
  split
  · rename_i h
    split
    · rename_i hst; exact enterClearing_stopLaw (by simp [hst])
    · rename_i hst; exact enterStop_stopLaw none h.2.1 (by simp [hst])
    · exact .refl s
  · exact .refl s

theorem enterGo_stopLaw {g : GroupNo} {s : State} (ho : (s.group g).state ≠ .stop) : StopLaw s (enterGo g s) := by
  have h1 := enterGroup_stopLaw (st := .go) none (s.group g).lateCancel (by simp) ho
  have h2 : StopLaw (enterGroup g .go none (s.group g).lateCancel s) (clearCalls (groupBit g) (enterGroup g .go none (s.group g).lateCancel s)) :=
    stopLaw_of_stands (clearCalls_moves g _ _) ⟨rfl, rfl⟩ Iff.rfl
  have m1 := enterGroup_moves g .go none (s.group g).lateCancel s
  have m2 := clearCalls_moves g (groupBit g) (enterGroup g .go none (s.group g).lateCancel s)
  exact (h1.trans m1.1 m2.1 h2).trans (m1.trans m2).1 (holdRule_moves g _).1 (holdRule_stopLaw _)

theorem resetAge_stopLaw (g : GroupNo) (s : State) : StopLaw s (resetAge g s) := by
  have k := resetAge_turn (t := s) (g := g) rfl
  refine stopLaw_of_stands k.moves ?_ (by rw [k.group]; rfl)
  unfold resetAge; dsimp only; split <;> exact ⟨rfl, rfl⟩

theorem requestSet_stopLaw (g : GroupNo) (s : State) : StopLaw s (requestSet g s) := by
  unfold requestSet
  split
  · exact resetAge_stopLaw g s
  · exact stopLaw_of_stands (setGroup_moves g _ s) (setGroup_stands g _ s) (by simp)
  · exact stopLaw_of_stands (setGroup_moves g _ s) (setGroup_stands g _ s) (by simp)
  · exact .refl s

theorem requestCleared_stopLaw (g : GroupNo) (s : State) : StopLaw s (requestCleared g s) := by
  unfold requestCleared
  split
  · exact resetAge_stopLaw g s
  · exact stopLaw_of_stands ((setGroup_moves g _ s).trans (submit_moves g _ _ _ _)) ⟨rfl, rfl⟩ (by simp)
  · rename_i hst
    split
    · exact enterClearing_stopLaw (by simp [hst])
    · exact stopLaw_of_stands ((setGroup_moves g _ s).trans (submit_moves g _ _ _ _)) ⟨rfl, rfl⟩ (by simp)
  · exact .refl s

theorem toFlashTurn_stopLaw (g : GroupNo) (s : State) : StopLaw s (toFlashTurn g s) := by
  have h : StopLaw s (endRequest g s) := by
    unfold endRequest; split
    · exact requestCleared_stopLaw g s
    · exact .refl s
  exact h.trans (endRequest_moves g s).1 (holdRule_moves g _).1 (holdRule_stopLaw _)

theorem expireTimer_stopLaw {g : GroupNo} {s : State} (hc : s.configured g = true) : StopLaw s (expireTimer g s) := by
  unfold expireTimer
  split
  · rename_i hst
    split
    · exact enterGo_stopLaw (by simp [hst])
    · exact .refl s
  · rename_i hst
    split
    · exact enterClearing_stopLaw (by simp [hst])
    · exact .refl s
  · rename_i hst
    split
    · exact enterStop_stopLaw none hc (by simp [hst])
    · exact .refl s
  · exact .refl s

@[simp] theorem advanceTimer_state (x : Group) : (advanceTimer x).state = x.state := by
  unfold advanceTimer; split <;> rfl

theorem stepGroup_stopLaw (p : EventParts) {g : GroupNo} {s : State} (hc : s.configured g = true) : StopLaw s (stepGroup p g s) := by
  have m1 : MovesOnly g s (advanceCounts p g s) := setGroup_moves g _ s
  have h1 : StopLaw s (advanceCounts p g s) := stopLaw_of_stands m1 (setGroup_stands g _ s) (by simp [advanceCounts])
  unfold stepGroup
  dsimp only
  split
  · exact h1
  · have m2 := setGroup_moves g (advanceTimer ((advanceCounts p g s).group g)) (advanceCounts p g s)
    have h2 : StopLaw (advanceCounts p g s) ((advanceCounts p g s).setGroup g (advanceTimer ((advanceCounts p g s).group g))) :=
      stopLaw_of_stands m2 (setGroup_stands g _ _) (by simp)
    exact (h1.trans m1.1 m2.1 h2).trans (m1.trans m2).1 (expireTimer_moves g _).1
      (expireTimer_stopLaw (((m1.trans m2).1.configured g).trans hc))

/-- A sweep each turn of which keeps the law keeps it. -/
theorem forGroups_stopLaw {f : GroupNo → State → State} {s : State} (hm : ∀ g s, MovesOnly g s (f g s))
    (hf : ∀ g s', s.configured g = true → GroupFrame s s' → s'.group g = s.group g → StopLaw s' (f g s')) :
    StopLaw s (forGroups f s) := by
  have turn : ∀ s' g, MovesOnly g s' (if s'.configured g then f g s' else s') := fun s' g => sweepTurn_moves hm s' g
  have fold : ∀ (l : List GroupNo) (s' : State), l.Nodup → GroupFrame s s' → (∀ g ∈ l, s'.group g = s.group g) →
      StopLaw s' (l.foldl (fun s g => if s.configured g then f g s else s) s') := by
    intro l
    induction l with
    | nil => exact fun s' _ _ _ => .refl s'
    | cons a l ih =>
      intro s' hn hs hg
      obtain ⟨ha, hl⟩ := List.nodup_cons.mp hn
      have h1 : StopLaw s' (if s'.configured a then f a s' else s') := by
        split
        · rename_i hc
          exact hf a s' ((hs.configured a).symm.trans hc) hs (hg a List.mem_cons_self)
        · exact .refl s'
      have h2 := ih (if s'.configured a then f a s' else s') hl (hs.trans (turn s' a).1) fun g hgl =>
        ((turn s' a).2 g fun e => ha (e ▸ hgl)).trans (hg g (List.mem_cons_of_mem _ hgl))
      exact h1.trans (turn s' a).1 (foldl_at _ turn 0 l _ hl).1 h2
  exact fold _ s (List.nodup_finRange 32) (.refl s) fun _ _ => rfl

/-! ### The frame of a command that moves groups -/

/-- The GROUP_STATE records of a group's change of state, the GO between PREPARE and CLEARING among them (R8, R16, R62). -/
def stateRecords (s : State) (g : GroupNo) (old new : GroupState) : List Said :=
  if old = .prepare ∧ new = .clearing then [groupRecord s g .go .prepare, groupRecord s g .clearing .go]
  else if new ≠ old then [groupRecord s g new old]
  else []

theorem moveRecords_eq (s t : State) :
    moveRecords s t = (List.finRange 32).flatMap fun g => stateRecords s g (s.group g).state (t.group g).state := rfl

@[simp] theorem stateRecords_same (s : State) (g : GroupNo) (st : GroupState) : stateRecords s g st st = [] := by
  cases st <;> simp [stateRecords]

/-- The records of an effect that are GROUP_STATE records. -/
def Effect.states (e : Effect) : List Said := e.records.filter fun c => c.1 = .groupState

/-- The records of an effect that are LATE_CANCEL and STOP_HELD records. -/
def Effect.requests (e : Effect) : List Said := e.records.filter fun c => c.1 = .lateCancel ∨ c.1 = .stopHeld

/-- An effect on a group with record `x` that records its changes of state, and holds back what they start. -/
structure Regular (s : State) (g : GroupNo) (x : Group) (e : Effect) : Prop where
  length : e.records.length ≤ 2
  states : e.states = stateRecords s g x.state e.group.state
  timers : e.timers = decide (e.group.state ≠ x.state)
  elapsed : e.elapsed = (decide (e.group.state ≠ x.state) && decide (e.group.state = .clearing))
  agesOfTimers : e.timers = true → e.ages = true
  ageOfAges : e.ages = true → e.group.age = 0

/-- The GROUP_STATE records of a sweep are those of its changes of state, in ascending group number (R8). -/
theorem Sweep.groupStates {eff : GroupNo → Effect} {s t : State} (h : Sweep eff s t)
    (hs : ∀ g, s.configured g = true → (eff g).states = stateRecords s g (s.group g).state (eff g).group.state)
    (hq : s.queue.held.length + (sweepRecords s eff).length ≤ 128) : t.queue.groupStates = s.queue.groupStates ++ moveRecords s t := by
  rw [h.queue, Queue.submits_groupStates _ hq, sweepRecords_filter, moveRecords_eq]
  congr 2; funext g
  rcases hc : s.configured g with _ | _
  · rw [h.unconfigured hc]; simp
  · rw [h.group hc, if_pos rfl]; exact hs g hc

/-- A sweep of regular effects that keeps the law of the stopped modes' timers is a move of groups. -/
theorem Sweep.groupMove {eff : GroupNo → Effect} {s t : State} (h : Sweep eff s t)
    (he : ∀ g, s.configured g = true → Regular s g (s.group g) (eff g)) (hl : StopLaw s t) : GroupMove s t where
  toGroupFrame := h.frame
  timerStarts := fun hs => by
    have k := hl.starts hs
    rw [k.mode]; exact ⟨rfl, rfl, rfl, k.heldModeTimer⟩
  timerStands := fun hs => ⟨(hl.stands hs).mode, (hl.stands hs).heldModeTimer⟩
  heldBack := fun g => by
    rw [h.timers, h.elapsed]
    unfold entersState
    rcases hc : s.configured g with _ | _
    · simp
    · rw [h.group hc, (he g hc).timers, (he g hc).elapsed]; simp [Bool.and_assoc]
  groupRecords := fun hq => h.groupStates (fun g hc => (he g hc).states) <| by
    have hl := sweepRecords_length fun g hc => (he g hc).length
    omega
  heldAges := fun g => by
    rw [h.ages]
    unfold entersState
    rcases hc : s.configured g with _ | _
    · exact ⟨fun k => by simpa using k, fun k => .inl (by simpa using k)⟩
    · rw [h.group hc]
      refine ⟨fun k => ?_, fun k => ?_⟩
      · rcases k with k | ⟨k1, k2⟩
        · simp [k]
        · have := (he g hc).agesOfTimers (by rw [(he g hc).timers]; simpa using k2)
          simp [k1, this]
      · simp only [Bool.or_eq_true, Bool.and_eq_true, true_and] at k
        exact k.imp id fun ⟨k1, k2⟩ => ⟨k1, (he g hc).ageOfAges k2⟩

end Sys2Proof.Machine

/-! PROOFS. Each effect of the group sequencer is regular: it records its changes of state and holds back what they start. -/

namespace Sys2Proof.Machine

open Sys2Proof

@[simp] theorem Effect.states_andThen (e f : Effect) : (e.andThen f).states = e.states ++ f.states := List.filter_append ..

@[simp] theorem Effect.requests_andThen (e f : Effect) : (e.andThen f).requests = e.requests ++ f.requests := List.filter_append ..

@[simp] theorem Effect.states_stay (x : Group) : (Effect.stay x).states = [] := rfl

@[simp] theorem Effect.requests_stay (x : Group) : (Effect.stay x).requests = [] := rfl

@[simp] theorem Effect.states_enter (s : State) (g : GroupNo) (x : Group) (st : GroupState) (e : Option Nat) (b : Bool) :
    (Effect.enter s g x st e b).states = [groupRecord s g st x.state] := rfl

@[simp] theorem Effect.requests_enter (s : State) (g : GroupNo) (x : Group) (st : GroupState) (e : Option Nat) (b : Bool) :
    (Effect.enter s g x st e b).requests = [] := rfl

/-- Regularity reads of the group's record before the turn its state alone. -/
theorem Regular.of_state {s : State} {g : GroupNo} {x y : Group} {e : Effect} (h : Regular s g x e) (hs : x.state = y.state) :
    Regular s g y e := by
  obtain ⟨h1, h2, h3, h4, h5, h6⟩ := h
  rw [hs] at h2 h3 h4
  exact ⟨h1, h2, h3, h4, h5, h6⟩

theorem stay_regular (s : State) (g : GroupNo) {x y : Group} (h : y.state = x.state) : Regular s g x (.stay y) := by
  constructor <;> simp [Effect.stay, h, Effect.states]

/-- An entry to another state, but for the one from PREPARE to CLEARING, which no operation makes at once. -/
theorem enter_regular (s : State) (g : GroupNo) {x : Group} {st : GroupState} {e : Option Nat} (b : Bool) (h : st ≠ x.state)
    (he : e.isSome = decide (st = .clearing)) (hp : ¬(x.state = .prepare ∧ st = .clearing)) :
    Regular s g x (.enter s g x st e b) := by
  refine ⟨by simp [Effect.enter], ?_, ?_, ?_, fun _ => rfl, fun _ => rfl⟩
  · rw [Effect.states_enter, stateRecords, if_neg (by exact hp), if_pos (by exact h)]; rfl
  · simp [Effect.enter, h]
  · simp [Effect.enter, h, he]

theorem holdEffect_regular (s : State) (g : GroupNo) (x : Group) : Regular s g x (holdEffect s g x) := by
  unfold holdEffect
  split
  · split
    · rename_i h; exact enter_regular s g _ (by simp [h]) rfl (by simp [h])
    · rename_i h; exact enter_regular s g _ (by simp [h]) rfl (by simp)
    · exact stay_regular s g rfl
  · exact stay_regular s g rfl

/-- The hold rule finds nothing to do for a group in neither PREPARE nor GO, and for one that no asserted line masks (R62). -/
theorem holdEffect_stay {s : State} {g : GroupNo} {x : Group} (h : s.heldByLine g = false ∨ s.holdsAct = false ∨ x.state.active = false) :
    holdEffect s g x = .stay x := by
  unfold holdEffect
  split
  · rename_i k
    rcases h with h | h | h
    · simp [h] at k
    · simp [h] at k
    · obtain ⟨_ | _ | _ | _ | _ | _, _, _, _, _, _, _, _⟩ := x
      case prepare | go => simp [GroupState.active] at h
      all_goals rfl
  · rfl

/-- The hold rule truncates a group in GO (R62). -/
theorem holdEffect_go {s : State} {g : GroupNo} {x : Group} (ha : s.holdsAct = true) (hl : s.heldByLine g = true) (hx : x.state = .go) :
    holdEffect s g x = .enter s g x .clearing (some 0) false := by
  unfold holdEffect
  rw [if_pos ⟨ha, hl⟩, hx]

theorem orderEffect_regular (s : State) (g : GroupNo) (x : Group) {st : GroupState} (h : st ≠ .clearing) :
    Regular s g x (orderEffect st s g x) := by
  unfold orderEffect
  split
  · exact stay_regular s g rfl
  · rename_i hst
    exact enter_regular s g _ (fun e => hst e.symm) (by simp [h]) (fun k => h k.2)

theorem ageEffect_regular (s : State) (g : GroupNo) (x : Group) : Regular s g x (ageEffect x) := by
  constructor <;> simp [ageEffect, Effect.states]

theorem setEffect_regular (s : State) (g : GroupNo) (x : Group) : Regular s g x (setEffect x) := by
  unfold setEffect
  split
  · exact ageEffect_regular s g x
  · refine stay_regular s g ?_
    unfold afterSet; split <;> rfl

/-- A flag set with its LATE_CANCEL or STOP_HELD record changes no state. -/
theorem flag_regular (s : State) (g : GroupNo) {x y : Group} {k : EventKind} (left : Nat) (hk : k ≠ .groupState) (h : y.state = x.state) :
    Regular s g x ⟨y, [requestRecord s g k left], false, false, false, false⟩ := by
  constructor <;> simp [Effect.states, requestRecord, h, hk]

theorem clearedEffect_regular (s : State) (g : GroupNo) (x : Group) : Regular s g x (clearedEffect s g x) := by
  unfold clearedEffect
  split
  · exact ageEffect_regular s g x
  · exact flag_regular s g _ (by simp) rfl
  · rename_i h
    split
    · exact enter_regular s g _ (by simp [h]) rfl (by simp [h])
    · exact flag_regular s g _ (by simp) rfl
  · exact stay_regular s g rfl

theorem changeEffect_regular (old : Mask) (s : State) (g : GroupNo) (x : Group) : Regular s g x (changeEffect old s g x) := by
  unfold changeEffect
  split
  · exact stay_regular s g rfl
  · split
    · exact setEffect_regular s g x
    · exact clearedEffect_regular s g x

/-- An entry to GO, as reported: its one record, with the call cleared. -/
@[simp] theorem goEntry_eq (s : State) (g : GroupNo) (x : Group) : goEntry s g x =
    ⟨⟨.go, 0, 0, 0, false, x.lateCancel, x.elapsed, 0⟩, [groupRecord s g .go x.state], true, false, true, true⟩ := rfl

/-- An entry to GO that the hold rule leaves (R16). -/
theorem goEffect_free {s : State} {g : GroupNo} (x : Group) (h : s.heldByLine g = false ∨ s.holdsAct = false) : goEffect s g x = goEntry s g x := by
  rw [goEffect, holdEffect_stay (h.imp_right .inl), Effect.andThen_stay]

/-- An entry to GO that the hold rule truncates (R62, R63). -/
theorem goEffect_held {s : State} {g : GroupNo} (x : Group) (ha : s.holdsAct = true) (hl : s.heldByLine g = true) : goEffect s g x =
    ⟨Group.cleared, [groupRecord s g .go x.state, groupRecord s g .clearing .go], true, true, true, true⟩ := by
  rw [goEffect, holdEffect_go ha hl rfl]; rfl

theorem goEffect_regular (s : State) (g : GroupNo) {x : Group} (h : x.state = .prepare) : Regular s g x (goEffect s g x) := by
  by_cases hh : s.holdsAct = true ∧ s.heldByLine g = true
  · rw [goEffect_held x hh.1 hh.2]
    constructor <;> simp [Effect.states, Group.cleared, stateRecords, h, groupRecord]
  · rw [goEffect_free x (by by_contra k; simp only [not_or, Bool.not_eq_false] at k; exact hh k.symm)]
    constructor <;> simp [Effect.states, stateRecords, h, groupRecord]

/-- A grant to a group that no asserted line masks (R14, R30). -/
theorem grantEffect_free {s : State} {g : GroupNo} (x : Group) (h : s.heldByLine g = false) : grantEffect s g x =
    if 0 < s.prepareTime g then .enter s g x .prepare none false else goEntry s g x := by
  unfold grantEffect prepareEffect
  rw [goEffect_free x (.inl h)]
  dsimp only
  rw [holdEffect_stay (.inl h), Effect.andThen_stay]

theorem grantEffect_regular {s : State} {g : GroupNo} {x : Group} (h : s.heldByLine g = false) (hx : x.state = .stop) :
    Regular s g x (grantEffect s g x) := by
  rw [grantEffect_free x h]
  split
  · exact enter_regular s g _ (by simp [hx]) rfl (by simp)
  · constructor <;> simp [Effect.states, stateRecords, hx, groupRecord]

theorem expireEffect_regular (s : State) (g : GroupNo) (x : Group) : Regular s g x (expireEffect s g x) := by
  unfold expireEffect
  split
  · rename_i h
    split
    · exact goEffect_regular s g h
    · exact stay_regular s g rfl
  · rename_i h
    split
    · exact enter_regular s g _ (by simp [h]) rfl (by simp [h])
    · exact stay_regular s g rfl
  · rename_i h
    split
    · exact enter_regular s g _ (by simp [h]) rfl (by simp)
    · exact stay_regular s g rfl
  · exact stay_regular s g rfl

theorem stepEffect_regular (p : EventParts) (s : State) (g : GroupNo) (x : Group) : Regular s g x (stepEffect p s g x) := by
  unfold stepEffect
  split
  · exact stay_regular s g rfl
  · exact (expireEffect_regular s g _).of_state (by rw [advanceTimer_state]; rfl)

end Sys2Proof.Machine

/-! PROOFS. The group sequencer's step (R10 to R12, R16, R18, R20). -/

namespace Sys2Proof.Machine

open Sys2Proof

/-- The state from which the sequencer's step of the present event moves the groups. -/
def stepStart (s : State) : State :=
  { s with parts := { s.parts with sequencer := false, heldTimers := 0, heldElapsed := 0, heldAges := 0 } }

theorem sequencerStep_due {s : State} (h : s.parts.sequencer = true) :
    sequencerStep s = forGroups (stepGroup s.parts) (stepStart s) := by
  simp [sequencerStep, h, stepStart]

theorem sequencerStep_sweep {s : State} (h : s.parts.sequencer = true) :
    Sweep (fun g => stepEffect s.parts (stepStart s) g (s.group g)) (stepStart s) (sequencerStep s) := by
  rw [sequencerStep_due h]
  exact stepGroups_sweep s.parts (stepStart s)

theorem sequencerStep_stopLaw {s : State} (h : s.parts.sequencer = true) : StopLaw (stepStart s) (sequencerStep s) := by
  rw [sequencerStep_due h]
  exact forGroups_stopLaw (stepGroup_moves _) fun g s' hc hs _ => stepGroup_stopLaw _ ((hs.configured g).trans hc)

theorem sequencerStep_move {s : State} (h : s.parts.sequencer = true) : GroupMove (stepStart s) (sequencerStep s) :=
  (sequencerStep_sweep h).groupMove (fun g _ => stepEffect_regular _ _ g _) (sequencerStep_stopLaw h)

/-- A group whose timer the present event holds back takes the advance of E and of its request age alone (R35, R46). -/
theorem stepEffect_held {p : EventParts} (s : State) {g : GroupNo} (x : Group) (h : p.heldTimers.getLsbD g.val = true) :
    stepEffect p s g x = .stay (counted s p g x) := by
  unfold stepEffect; rw [h]; rfl

theorem stepEffect_free {p : EventParts} (s : State) {g : GroupNo} (x : Group) (h : p.heldTimers.getLsbD g.val = false) :
    stepEffect p s g x = expireEffect s g (advanceTimer (counted s p g x)) := by
  unfold stepEffect; rw [h]; rfl

/-- The step of a group short of every expiry: E, the request age and the timer of its state advance (R10, R11, R12). -/
theorem stepEffect_quiet (p : EventParts) (s : State) (g : GroupNo) (x : Group) (h : p.heldTimers.getLsbD g.val = false)
    (hp : x.state = .prepare → x.prepareTimer + 1 < s.prepareTime g)
    (hg : x.state = .go → x.heldStop = false ∨ min (x.goTimer + 1) 65535 < s.minimumGo g)
    (hc : x.state = .clearing → x.clearingTimer + 1 < s.clearingTime g) :
    (stepEffect p s g x).group = advanceTimer (counted s p g x) := by
  rw [stepEffect_free s x h]
  obtain ⟨_ | _ | _ | _ | _ | _, _, _, _, _, _, _, _⟩ := x
  case prepare => exact congrArg Effect.group (if_neg (Nat.not_le.2 (hp rfl)))
  case go =>
    refine congrArg Effect.group (if_neg fun k => ?_)
    rcases hg rfl with e | e
    · exact absurd k.2 (by simp [advanceTimer, counted, e])
    · exact absurd k.1 (Nat.not_le.2 e)
  case clearing => exact congrArg Effect.group (if_neg (Nat.not_le.2 (hc rfl)))
  all_goals rfl

/-- The step that brings a prepare-timer to P (R16). -/
theorem stepEffect_prepare {p : EventParts} (s : State) {g : GroupNo} {x : Group} (h : p.heldTimers.getLsbD g.val = false)
    (hx : x.state = .prepare) (hp : s.prepareTime g ≤ x.prepareTimer + 1) :
    stepEffect p s g x = goEffect s g (advanceTimer (counted s p g x)) := by
  rw [stepEffect_free s x h]
  obtain ⟨st⟩ := x; obtain rfl : st = .prepare := hx
  exact if_pos hp

/-- The step that brings the go-timer of a group with its stop held to MG (R18). -/
theorem stepEffect_heldStop {p : EventParts} (s : State) {g : GroupNo} {x : Group} (h : p.heldTimers.getLsbD g.val = false)
    (hx : x.state = .go) (hs : x.heldStop = true) (hg : s.minimumGo g ≤ min (x.goTimer + 1) 65535) :
    stepEffect p s g x = .enter s g (advanceTimer (counted s p g x)) .clearing (some 0) false := by
  rw [stepEffect_free s x h]
  obtain ⟨st⟩ := x; obtain rfl : st = .go := hx
  exact if_pos ⟨hg, hs⟩

/-- The step that brings a clearing-timer to CL (R20). -/
theorem stepEffect_clearing {p : EventParts} (s : State) {g : GroupNo} {x : Group} (h : p.heldTimers.getLsbD g.val = false)
    (hx : x.state = .clearing) (hc : s.clearingTime g ≤ x.clearingTimer + 1) :
    stepEffect p s g x = .enter s g (advanceTimer (counted s p g x)) .stop none false := by
  rw [stepEffect_free s x h]
  obtain ⟨st⟩ := x; obtain rfl : st = .clearing := hx
  exact if_pos hc

@[simp] theorem counted_state (s : State) (p : EventParts) (g : GroupNo) (x : Group) : (counted s p g x).state = x.state := rfl

/-- E after the step, where no order of this event set it (R11). -/
theorem advanced_elapsed (s : State) {p : EventParts} {g : GroupNo} (x : Group) (h : p.heldElapsed.getLsbD g.val = false) :
    (advanceTimer (counted s p g x)).elapsed = min (x.elapsed + 1) 65535 := by
  have e : (counted s p g x).elapsed = min (x.elapsed + 1) 65535 := by
    simp only [counted, nextElapsed, h]; rfl
  rw [← e]; unfold advanceTimer; split <;> rfl

theorem advanced_lateCancel (s : State) (p : EventParts) (g : GroupNo) (x : Group) :
    (advanceTimer (counted s p g x)).lateCancel = x.lateCancel := by
  unfold advanceTimer; split <;> rfl

theorem timerAdvances_due {s : State} {g : GroupNo} {st : GroupState} (hd : s.parts.sequencer = true) (hc : s.configured g = true)
    (ht : s.parts.heldTimers.getLsbD g.val = false) (hst : (s.group g).state = st) : s.timerAdvances g st = true := by
  rw [State.timerAdvances, hd, hc, ht, hst]; simp

/-- With room in the queue a configured group's records of the step are held. -/
theorem sequencerStep_records {s : State} (h : s.parts.sequencer = true) {g : GroupNo} (hc : s.configured g = true)
    (hq : s.queue.held.length ≤ 64) {new old : GroupState}
    (hr : groupRecord s g new old ∈ (stepEffect s.parts (stepStart s) g (s.group g)).records) :
    Records (sequencerStep s).queue s .groupState (subjectOf g.val) (groupDetail new old) := by
  have hs := sequencerStep_sweep h
  have hl := sweepRecords_length (s := stepStart s) (eff := fun g => stepEffect s.parts (stepStart s) g (s.group g))
    fun g _ => (stepEffect_regular s.parts (stepStart s) g (s.group g)).length
  rw [records_iff, hs.queue]
  exact Queue.mem_submits _ (Nat.add_le_add hq hl) (mem_sweepRecords (s := stepStart s) hc hr)

section

/-- Settles O8: each group's turn of the step is short of its expiry, and the step is a move of groups. -/
theorem sequencerStepAdvancesTheTimers : Obligations.SequencerStepAdvancesTheTimers := by
  unfold Obligations.SequencerStepAdvancesTheTimers
  intro s
  refine ⟨fun h => ?_, fun h => ⟨sequencerStep s, rfl, sequencerStep_move h, fun g => ⟨fun hc => ?_, fun hc => ?_⟩⟩⟩
  · show Host.Outcome.next (sequencerStep s) = _
    simp [sequencerStep, h]
  · exact (sequencerStep_sweep h).unconfigured hc
  · have hg := (sequencerStep_sweep h).group (g := g) hc
    refine ⟨fun ht => ?_, fun ht => ?_⟩
    · rw [hg, stepEffect_held _ _ ht]; rfl
    · rcases hx : s.group g with ⟨_ | _ | _ | _ | _ | _, _, _, _, _, _, _, _⟩ <;> dsimp only <;> rw [hx] at hg
      case prepare =>
        intro hp
        rw [hg, stepEffect_quiet _ _ _ _ ht (fun _ => hp) (by simp) (by simp)]
        simp only [State.isPending, hx]; rfl
      case go =>
        intro hp
        rw [hg, stepEffect_quiet _ _ _ _ ht (by simp) (fun _ => hp) (by simp)]
        simp only [State.isPending, hx]; rfl
      case clearing =>
        intro hp
        rw [hg, stepEffect_quiet _ _ _ _ ht (by simp) (by simp) (fun _ => hp)]
        simp only [State.isPending, hx]; rfl
      all_goals
        rw [hg, stepEffect_quiet _ _ _ _ ht (by simp) (by simp) (by simp)]
        simp only [State.isPending, hx]; rfl

/-- Settles O9: the turn of the group whose timer expires, and the law of the stopped modes' timers for the last entry to STOP. -/
theorem sequencerExpiriesMoveTheGroup : Obligations.SequencerExpiriesMoveTheGroup := by
  unfold Obligations.SequencerExpiriesMoveTheGroup
  refine ⟨fun s g hd hc hst ht he hp => ?_, fun s g hd hc ht he => ⟨fun hst hh hp => ?_, fun hst hp => ?_⟩⟩
  · have hx := sequencerStep_sweep hd
    have hgo := stepEffect_prepare (stepStart s) ht hst hp
    refine ⟨sequencerStep s, ?_, rfl, fun hf => ?_, fun ha hl => ?_, ?_, fun hq => ?_⟩
    · have : prepareExpires g s = true := by simp [prepareExpires, timerAdvances_due hd hc ht hst, hp]
      show Host.Outcome.next (if prepareExpires g s then sequencerStep s else s) = _
      rw [this]; rfl
    · rw [hx.group hc, hgo, goEffect_free (s := stepStart s) _ hf.symm, goEntry_eq, advanced_elapsed _ _ he, advanced_lateCancel]
    · rw [hx.group hc, hgo, goEffect_held (s := stepStart s) _ ha hl]
    · rw [hx.calls hc, hgo]; rfl
    · refine sequencerStep_records hd hc hq ?_
      rw [hgo]
      refine List.mem_append_left _ ?_
      rw [goEntry_eq, advanceTimer_state, counted_state, hst]
      exact List.mem_singleton.2 rfl
  · have hx := sequencerStep_sweep hd
    have hcl := stepEffect_heldStop (stepStart s) ht hst hh hp
    refine ⟨sequencerStep s, ?_, rfl, ?_, fun hq => ?_⟩
    · have : heldStopExpires g s = true := by
        simpa [heldStopExpires, timerAdvances_due hd hc ht hst, hh, satAdd, Config.wordLimit] using hp
      show Host.Outcome.next (if heldStopExpires g s then sequencerStep s else s) = _
      rw [this]; rfl
    · rw [hx.group hc, hcl]; rfl
    · refine sequencerStep_records hd hc hq ?_
      rw [hcl, Effect.enter, advanceTimer_state, counted_state, hst]
      exact List.mem_singleton.2 rfl
  · have hx := sequencerStep_sweep hd
    have hs := stepEffect_clearing (stepStart s) ht hst hp
    have law := sequencerStep_stopLaw hd
    have hg : (sequencerStep s).group g = Group.stopped (min ((s.group g).elapsed + 1) 65535) := by
      rw [hx.group hc, hs, ← advanced_elapsed (stepStart s) _ he]; rfl
    have hsa : (stepStart s).allStopped = false := by
      by_contra k
      have : (s.group g).state = .stop := (allStopped_iff (stepStart s)).1 (by simpa only [Bool.not_eq_false] using k) g hc
      rw [hst] at this; exact absurd this (by simp)
    refine ⟨sequencerStep s, ?_, rfl, hg, fun hm hr hj => ?_, fun hm ⟨j, hj, hjc, hjs⟩ => ?_, fun hq => ?_⟩
    · have : clearingExpires g s = true := by simp [clearingExpires, timerAdvances_due hd hc ht hst, hp]
      show Host.Outcome.next (if clearingExpires g s then sequencerStep s else s) = _
      rw [this]; rfl
    · have hta : (sequencerStep s).allStopped = true := (allStopped_iff _).2 fun j hjc => by
        by_cases e : j = g
        · rw [e, hg]; rfl
        · have hjs : s.configured j = true := (hx.frame.configured j).symm.trans hjc
          exact law.kept hm j hjs (hj j e hjs)
      have k := law.starts ((lastEntersStop_iff _ _).2 ⟨hm, hr, hsa, hta⟩)
      exact ⟨k.mode, k.heldModeTimer⟩
    · refine (law.stands ?_).mode
      by_contra k
      obtain ⟨-, -, -, hta⟩ := (lastEntersStop_iff _ _).1 (by simpa using k)
      exact hjs ((allStopped_iff _).1 hta j ((hx.frame.configured j).trans hjc))
    · refine sequencerStep_records hd hc hq ?_
      rw [hs, Effect.enter, advanceTimer_state, counted_state, hst]
      exact List.mem_singleton.2 rfl

end

end Sys2Proof.Machine

/-! PROOFS. The evaluation's grants (R14, R35, R38). -/

namespace Sys2Proof.Machine

open Sys2Proof

theorem mem_rankInsert (s : State) (g a : GroupNo) (l : List GroupNo) : a ∈ rankInsert s g l ↔ a = g ∨ a ∈ l := by
  induction l with
  | nil => simp [rankInsert]
  | cons x l ih =>
    unfold rankInsert
    split
    · simp
    · simp only [List.mem_cons, ih]; tauto

/-- Ranking a list keeps its members (R36). -/
theorem mem_ranked (s : State) (a : GroupNo) (l : List GroupNo) : a ∈ ranked s l ↔ a ∈ l := by
  induction l with
  | nil => simp [ranked]
  | cons x l ih =>
    rw [ranked, List.foldr_cons, mem_rankInsert, List.mem_cons]
    exact or_congr_right ih

/-- The walk grants members of the list alone (R37). -/
theorem mem_of_mem_walk {s : State} {a : GroupNo} {l : List GroupNo} (h : a ∈ walk s l) : a ∈ l := by
  have fold : ∀ (l m : List GroupNo), a ∈ l.foldl (fun granted g =>
      if granted.any fun j => s.inConflict j g then granted else g :: granted) m → a ∈ m ∨ a ∈ l := by
    intro l
    induction l with
    | nil => exact fun m h => .inl h
    | cons x l ih =>
      intro m h
      rcases ih _ h with h | h
      · dsimp only at h
        split at h
        · exact .inl h
        · rcases List.mem_cons.1 h with rfl | h
          · exact .inr List.mem_cons_self
          · exact .inl h
      · exact .inr (List.mem_cons_of_mem _ h)
  exact (fold l [] h).resolve_left (by simp)

/-- A granted group is releasable (R28, R37). -/
theorem releasable_of_granted {s : State} {g : GroupNo} (h : g ∈ grantedGroups s) : releasable s g = true := by
  have h1 := (mem_ranked s g (candidates s)).1 (mem_of_mem_walk h)
  exact (List.mem_filter.1 h1).2

/-- What a releasable group is, as its grant needs it (R28). -/
theorem releasable_facts {s : State} {g : GroupNo} (h : releasable s g = true) :
    s.mode.mode = .normal ∧ s.configured g = true ∧ (s.group g).state = .stop ∧ s.heldByLine g = false := by
  simp only [releasable, State.isPending, Bool.and_eq_true, decide_eq_true_iff, Bool.not_eq_true'] at h
  obtain ⟨⟨⟨⟨⟨hm, hc⟩, hp, -⟩, hl⟩, -⟩, -⟩ := h
  exact ⟨hm, hc, hp, hl⟩

/-- The state from which an evaluation that reports the values `r` hands over its grants (R33, R39). -/
def grantStart (r : Arbiter) (s : State) : State := { s with arbiter := r, parts := { s.parts with arbiter := false } }

theorem evaluate_due {s : State} (h : s.parts.arbiter = true) : evaluate s =
    forGroups (fun g s' => if (grantedGroups s).elem g then grant g s' else s') (grantStart (reported s) s) := by
  simp [evaluate, h, grantStart]

section

variable {l : List GroupNo} {s : State} {g : GroupNo}

theorem grantsEffect_other (h : g ∉ l) : grantsEffect l s g = .stay (s.group g) := by
  rw [grantsEffect, if_neg fun k => h (List.elem_iff.1 k)]

theorem grantsEffect_granted (h : g ∈ l) (hl : s.heldByLine g = false) : grantsEffect l s g =
    if 0 < s.prepareTime g then .enter s g (s.group g) .prepare none false else goEntry s g (s.group g) := by
  rw [grantsEffect, if_pos (List.elem_iff.2 h), grantEffect_free _ hl]

theorem grantsEffect_regular (h : g ∈ l → (s.group g).state = .stop ∧ s.heldByLine g = false) :
    Regular s g (s.group g) (grantsEffect l s g) := by
  unfold grantsEffect
  split
  · rename_i hg
    obtain ⟨hx, hl⟩ := h (List.elem_iff.1 hg)
    exact grantEffect_regular hl hx
  · exact stay_regular _ g rfl

/-- In the stopped modes nothing is granted, so that no timer of theirs starts (R28). -/
theorem grants_stopLaw (h : ∀ g ∈ l, s.mode.mode = .normal) :
    StopLaw s (forGroups (fun g s => if l.elem g then grant g s else s) s) := by
  by_cases hs : s.stopping
  · refine forGroups_stopLaw (fun g t => ?_) fun g t _ _ _ => ?_
    · split
      · exact grant_moves g t
      · exact .refl g t
    · split
      · rename_i hg
        have hm := h g (List.elem_iff.1 hg)
        simp [State.stopping, hm] at hs
      · exact .refl t
  · exact stopLaw_of_not_stopping hs (Pass.mode (grants_sweep l s))

end

/-- What a granted group is, as its grant needs it (R28, R37). -/
theorem granted_facts {s : State} {g : GroupNo} (h : g ∈ grantedGroups s) :
    s.mode.mode = .normal ∧ s.configured g = true ∧ (s.group g).state = .stop ∧ s.heldByLine g = false :=
  releasable_facts (releasable_of_granted h)

/-- An evaluation, whatever it reports, is a sweep of its grants and a move of groups. -/
theorem evaluate_move {s : State} (h : s.parts.arbiter = true) : ∃ r,
    Sweep (grantsEffect (grantedGroups s) (grantStart r s)) (grantStart r s) (evaluate s) ∧ GroupMove (grantStart r s) (evaluate s) := by
  rw [evaluate_due h]
  generalize reported s = r
  have hs := grants_sweep (grantedGroups s) (grantStart r s)
  exact ⟨r, hs, hs.groupMove (fun g _ => grantsEffect_regular fun hg => (granted_facts hg).2.2)
    (grants_stopLaw fun g hg => (granted_facts hg).1)⟩

/-- Settles O13: the turn of a granted group is its grant, which no asserted line meets, and every other group's turn is nothing. -/
theorem evaluationMovesTheGrantedGroups : Obligations.EvaluationMovesTheGrantedGroups := by
  unfold Obligations.EvaluationMovesTheGrantedGroups
  intro s h
  obtain ⟨r, hs, hm⟩ := evaluate_move h
  have ha : (evaluate s).arbiter = r := hs.frame.arbiter
  refine ⟨evaluate s, rfl, by rw [ha]; exact hm, fun g => ?_⟩
  by_cases hg : g ∈ grantedGroups s
  · obtain ⟨-, hc, -, hl⟩ := granted_facts hg
    have hc' : (grantStart r s).configured g = true := hc
    have he := grantsEffect_granted (s := grantStart r s) hg hl
    have hz : s.prepareTime g = 0 → (if 0 < (grantStart r s).prepareTime g then
        Effect.enter (grantStart r s) g ((grantStart r s).group g) .prepare none false
        else goEntry (grantStart r s) g ((grantStart r s).group g)) = goEntry (grantStart r s) g ((grantStart r s).group g) :=
      fun hp => if_neg (Nat.not_lt.2 (Nat.le_of_eq hp))
    refine ⟨fun k => absurd hg k, fun _ hq => ?_, ?_, fun _ hp => ?_, fun _ hp hl => ⟨?_, ?_⟩⟩
    · rw [hs.timers, he, hc', show (grantStart r s).parts.sequencer = true from hq]
      split <;> simp [Effect.enter]
    · rw [hs.elapsed, he]
      split <;> simp [Effect.enter] <;> rfl
    · rw [hs.group hc', he, if_pos (show 0 < (grantStart r s).prepareTime g from hp)]; rfl
    · rw [hs.group hc', he, hz hp, goEntry_eq, show ((grantStart r s).group g).lateCancel = false from hl]
      rfl
    · rw [hs.calls hc', he, hz hp]; rfl
  · have he := grantsEffect_other (s := grantStart r s) hg
    refine ⟨fun _ => ⟨?_, ?_⟩, fun k => absurd k hg, ?_, fun k => absurd k hg, fun k => absurd k hg⟩
    · rcases hc : (grantStart r s).configured g with _ | _
      · exact hs.unconfigured hc
      · rw [hs.group hc, he]; rfl
    · rw [hs.timers, he]; simp [Effect.stay]; rfl
    · rw [hs.elapsed, he]; simp [Effect.stay]; rfl

end Sys2Proof.Machine

/-! PROOFS. Writes of the GO mask (R85, R87 to R90). -/

namespace Sys2Proof.Machine

open Sys2Proof

/-- A command of the GO mask is a write to a word 0 to 7 of the request page. -/
theorem exec_maskWrite {c : Instr} {word : Nat} {w : BusWrite} (h : maskWriteOf c = some (word, w)) :
    word < 8 ∧ ∀ s, exec c s = .next (busWrite 0 word w s) := by
  cases c <;> simp only [maskWriteOf, Option.some.injEq, Prod.mk.injEq, reduceCtorEq] at h
  all_goals
    obtain ⟨rfl, rfl⟩ := h
    exact ⟨by omega, fun _ => rfl⟩

@[simp] theorem Queue.atAccess_held (q : Queue) : q.atAccess.held = q.held := by
  unfold Queue.atAccess; split <;> rfl

theorem Taken.beginAccess {s : State} {l : Level} {w : BusWrite} (h : Taken s l w) : Taken (beginAccess s) l w := h

/-- The word a write of the GO mask forwards (R87, R88, R89). -/
def forwardedMask (word : Nat) (w : BusWrite) (s : State) : Word :=
  clampWord s word (maskResult word (s.page.mirror (word % 2)).value w)

/-- The state in which a write of the GO mask hands its changes to the groups: the access noted, the word forwarded (R85, R90). -/
def forwarded (word : Nat) (w : BusWrite) (s : State) : State :=
  forwardWord (word % 2) (forwardedMask word w s) (beginAccess s)

/-- A write of the GO mask that passes its checks. -/
theorem exec_mask_taken {c : Instr} {word : Nat} {w : BusWrite} {s : State} (h : maskWriteOf c = some (word, w))
    (ht : Taken s (requiredLevel s.tap.levelMap .request) w) :
    exec c s = .next (requestAccepted (handChanges s.goMask (forwarded word w s))) := by
  obtain ⟨h8, he⟩ := exec_maskWrite h
  rw [he, busWrite_request ht.1 (by omega), requestWrite_taken (s := beginAccess s) ht, if_pos h8]
  rfl

/-- The clamp, bit by bit (R89). -/
theorem clampWord_getLsbD (s : State) (word : Nat) (v : Word) {k : Nat} (hk : k < 16) : (clampWord s word v).getLsbD k =
    (v.getLsbD k && s.store.nv.valid && decide (16 * (word % 2) + k < s.active.timing.groupCount.toNat)) := by
  have hb : ∀ n (hn : n < 32), s.configuredMask.getLsbD n = (s.store.nv.valid && decide (n < s.active.timing.groupCount.toNat)) := by
    intro n hn
    rw [configuredMask_getLsbD s ⟨n, hn⟩]
    unfold State.configured State.groupCount
    cases s.store.nv.valid <;> simp
  rw [clampWord, BitVec.getLsbD_and, Bool.and_assoc]
  congr 1
  have hw : word % 2 = 0 ∨ word % 2 = 1 := by omega
  unfold maskWord
  rcases hw with hw | hw
  · rw [hw, ← hb _ (by omega)]
    simp [lowWord, hk]
  · rw [hw, ← hb _ (by omega)]
    simp [highWord, hk]

/-- The mirror of a base word (R84). -/
theorem mirror_base (p : RequestPage) (word : Nat) :
    (p.mirror (word % 2)).value = if word % 2 = 0 then p.word0.value else p.word1.value := by
  rcases (show word % 2 = 0 ∨ word % 2 = 1 by omega) with h | h <;> simp [RequestPage.mirror, h]

/-- What no move of groups reads, the request page and the queue's moment, changes nothing in its frame. -/
theorem GroupMove.withPage {s t : State} (h : GroupMove s t) (p : RequestPage) {q : Queue} (hq : q.held = s.queue.held) :
    GroupMove { s with page := p, queue := q } { t with page := p } where
  powerOnHeld := h.powerOnHeld
  externalHeld := h.externalHeld
  clock := h.clock
  arbiter := h.arbiter
  page := rfl
  tap := h.tap
  link := h.link
  store := h.store
  latches := h.latches
  bus := h.bus
  pending := h.pending
  mode := h.mode
  lamps := h.lamps
  detectors := h.detectors
  parts := h.parts
  timerStarts := h.timerStarts
  timerStands := h.timerStands
  heldBack := h.heldBack
  groupRecords := fun hl => by
    have hg : ({ s with page := p, queue := q } : State).queue.groupStates = s.queue.groupStates := by
      simp only [Queue.groupStates, Queue.contents, hq]
    rw [hg]
    exact h.groupRecords (by simpa only [hq] using hl)
  heldAges := h.heldAges

theorem handChanges_toFlash (old : Mask) {s : State} (h : s.mode.mode = .toFlash) : handChanges old s = s := if_pos h

theorem handChanges_stopLaw (old : Mask) (s : State) : StopLaw s (handChanges old s) := by
  unfold handChanges
  split
  · exact .refl s
  · refine forGroups_stopLaw (fun g t => ?_) fun g t _ _ _ => ?_ <;> split
    · exact .refl g t
    · split
      · exact requestSet_moves g t
      · exact requestCleared_moves g t
    · exact .refl t
    · split
      · exact requestSet_stopLaw g t
      · exact requestCleared_stopLaw g t

theorem GroupMove.refl (s : State) : GroupMove s s where
  toGroupFrame := .refl s
  timerStarts := fun h => by
    have := (StopLaw.refl s).starts h
    exact ⟨by rw [this.mode], by rw [this.mode], by rw [this.mode], this.heldModeTimer⟩
  timerStands := fun _ => ⟨rfl, rfl⟩
  heldBack := fun g => by simp [entersState]
  groupRecords := fun _ => by simp [moveRecords_eq]
  heldAges := fun g => ⟨fun h => by simpa [entersState] using h, fun h => .inl h⟩

/-- The changes of a write handed to the groups are a move of groups (R90). -/
theorem handChanges_move (old : Mask) (s : State) : GroupMove s (handChanges old s) := by
  by_cases hm : s.mode.mode = .toFlash
  · rw [handChanges_toFlash old hm]; exact .refl s
  · exact (handChanges_sweep old s hm).groupMove (fun g _ => changeEffect_regular old s g _) (handChanges_stopLaw old s)

/-- The request page after an accepted write to a base word (R85, R97, R98). -/
theorem forwarded_page (word : Nat) (w : BusWrite) (s : State) : (requestAccepted (forwarded word w s)).page = { s.page with
    word0 := if word % 2 = 0 then ⟨forwardedMask word w s, true, false⟩ else s.page.word0
    word1 := if word % 2 = 0 then s.page.word1 else ⟨forwardedMask word w s, true, false⟩
    refusals := 0
    liveness := if s.mode.mode = .allStop ∨ s.mode.mode = .normal then 0 else s.page.liveness } := by
  have hm : s.mode.mode.supervised = decide (s.mode.mode = .allStop ∨ s.mode.mode = .normal) := by simp [Mode.supervised]
  rcases (show word % 2 = 0 ∨ word % 2 = 1 by omega) with h | h <;>
    simp [requestAccepted, forwarded, forwardWord, RequestPage.setMirror, h, beginAccess, hm]

/-- What an accepted write leaves of the request page does not depend on the moves of groups between. -/
theorem requestAccepted_handChanges (old : Mask) (s : State) : requestAccepted (handChanges old s) =
    { handChanges old s with page := (requestAccepted s).page } := by
  have h := (handChanges_move old s).toGroupFrame
  simp only [requestAccepted, h.page, h.modeMode]

section

variable {s : State} {word : Nat} {w : BusWrite} {g : GroupNo}

/-- The effect of a write of the GO mask on a group, outside TO_FLASH (R90). -/
def maskEffect (word : Nat) (w : BusWrite) (s : State) (g : GroupNo) : Effect :=
  changeEffect s.goMask (forwarded word w s) g (s.group g)

theorem maskWrite_sweep (word : Nat) (w : BusWrite) (h : s.mode.mode ≠ .toFlash) :
    Sweep (maskEffect word w s) (forwarded word w s) (handChanges s.goMask (forwarded word w s)) :=
  handChanges_sweep s.goMask (forwarded word w s) h

theorem maskEffect_same (h : (forwarded word w s).goMask.getLsbD g.val = s.goMask.getLsbD g.val) :
    maskEffect word w s g = .stay (s.group g) := if_pos h

theorem maskEffect_set (h0 : s.goMask.getLsbD g.val = false) (h1 : (forwarded word w s).goMask.getLsbD g.val = true) :
    maskEffect word w s g = setEffect (s.group g) := by
  rw [maskEffect, changeEffect, if_neg (by rw [h0, h1]; simp), if_pos h1]

theorem maskEffect_cleared (h0 : s.goMask.getLsbD g.val = true) (h1 : (forwarded word w s).goMask.getLsbD g.val = false) :
    maskEffect word w s g = clearedEffect s g (s.group g) := by
  rw [maskEffect, changeEffect, if_neg (by rw [h0, h1]; simp), if_neg (by rw [h1]; simp)]
  rfl

end

@[simp] theorem setEffect_group (x : Group) : (setEffect x).group = afterSet x := by
  obtain ⟨_ | _ | _ | _ | _ | _, _, _, _, _, _, _, _⟩ := x <;> rfl

@[simp] theorem clearedEffect_group (s : State) (g : GroupNo) (x : Group) : (clearedEffect s g x).group = afterCleared s g x := by
  obtain ⟨_ | _ | _ | _ | _ | _, _, _, _, _, _, _, _⟩ := x
  case go =>
    show Effect.group (if _ then _ else _) = if _ then _ else _
    split <;> rfl
  all_goals rfl

theorem clearedEffect_go {s : State} {g : GroupNo} {x : Group} (h : x.state = .go) : clearedEffect s g x =
    if s.minimumGo g ≤ x.goTimer then .enter s g x .clearing (some 0) false
    else ⟨{ x with heldStop := true }, [requestRecord s g .stopHeld (s.minimumGo g - x.goTimer)], false, false, false, false⟩ := by
  obtain ⟨st⟩ := x; obtain rfl : st = .go := h
  rfl

theorem setEffect_requests (x : Group) : (setEffect x).requests = [] := by
  unfold setEffect; split <;> rfl

/-- The LATE_CANCEL and STOP_HELD records of a request cleared (R15, R17). -/
theorem clearedEffect_requests (s : State) (g : GroupNo) : (clearedEffect s g (s.group g)).requests = stopRecords s g := by
  unfold stopRecords
  rcases s.group g with ⟨_ | _ | _ | _ | _ | _, _, n, _, _, _, _, _⟩
  case go =>
    show Effect.requests (if s.minimumGo g ≤ n then _ else _) = if n < s.minimumGo g then _ else _
    by_cases h : s.minimumGo g ≤ n
    · rw [if_pos h, if_neg (by omega)]; rfl
    · rw [if_neg h, if_pos (by omega)]; rfl
  all_goals rfl

theorem setEffect_ages {x : Group} (h : x.state = .stop) : (setEffect x).ages = true := by
  unfold setEffect; rw [h]; rfl

theorem clearedEffect_ages (s : State) (g : GroupNo) {x : Group} (h : x.state = .stop) : (clearedEffect s g x).ages = true := by
  unfold clearedEffect; rw [h]; rfl

/-- The requests of a sweep, in ascending group number. -/
theorem Sweep.requestRecords {eff : GroupNo → Effect} {s t : State} (h : Sweep eff s t)
    (he : ∀ g, s.configured g = true → (eff g).records.length ≤ 2) (hq : s.queue.held.length ≤ 64) :
    t.queue.requestRecords = s.queue.requestRecords ++
      (List.finRange 32).flatMap fun g => if s.configured g then (eff g).requests else [] := by
  have hl := sweepRecords_length he
  rw [h.queue, Queue.submits_requestRecords _ (by omega), sweepRecords_filter]
  rfl

/-- With room in the queue a configured group's records of a sweep are held. -/
theorem Sweep.records {eff : GroupNo → Effect} {s t : State} (h : Sweep eff s t)
    (he : ∀ g, s.configured g = true → (eff g).records.length ≤ 2) (hq : s.queue.held.length ≤ 64) {g : GroupNo}
    (hc : s.configured g = true) {k : EventKind} {x : Byte} {d : Word} (hr : (k, lowWord s.clock, x, d) ∈ (eff g).records) :
    Records t.queue s k x d := by
  have hl := sweepRecords_length he
  rw [records_iff, h.queue]
  exact Queue.mem_submits _ (by omega) (mem_sweepRecords hc hr)

/-- What a write of the GO mask makes of each group (R13, R15, R17, R56, R90). -/
theorem maskWrite_groups (s : State) (word : Nat) (w : BusWrite) (g : GroupNo) :
    let t := requestAccepted (handChanges s.goMask (forwarded word w s))
    let was := s.goMask.getLsbD g.val
    let is := t.goMask.getLsbD g.val
    (s.mode.mode = .toFlash ∨ is = was ∨ s.configured g = false → t.group g = s.group g) ∧
    (s.mode.mode ≠ .toFlash → s.configured g = true → was = false → is = true → t.group g = afterSet (s.group g)) ∧
    (s.mode.mode ≠ .toFlash → s.configured g = true → was ≠ is → (s.group g).state = .stop →
      t.parts.heldAges.getLsbD g.val = (s.parts.heldAges.getLsbD g.val || s.parts.sequencer)) ∧
    (s.mode.mode ≠ .toFlash → s.configured g = true → was = true → is = false →
      t.group g = afterCleared s g (s.group g) ∧
      (s.queue.held.length ≤ 64 →
        ((s.group g).state = .prepare →
          Records t.queue s .lateCancel (subjectOf g.val) (BitVec.ofNat 16 (s.prepareTime g - (s.group g).prepareTimer))) ∧
        ((s.group g).state = .go → (s.group g).goTimer < s.minimumGo g →
          Records t.queue s .stopHeld (subjectOf g.val) (BitVec.ofNat 16 (s.minimumGo g - (s.group g).goTimer))) ∧
        ((s.group g).state = .go → s.minimumGo g ≤ (s.group g).goTimer →
          Records t.queue s .groupState (subjectOf g.val) (groupDetail .clearing .go)))) := by
  have hmask : (requestAccepted (handChanges s.goMask (forwarded word w s))).goMask = (forwarded word w s).goMask :=
    (handChanges_move _ _).toGroupFrame.goMask
  intro t was is
  have his : is = (forwarded word w s).goMask.getLsbD g.val := congrArg (fun m : Mask => m.getLsbD g.val) hmask
  refine ⟨fun h => ?_, fun hm hc h0 h1 => ?_, fun hm hc hne hst => ?_, fun hm hc h0 h1 => ?_⟩
  · by_cases hm : s.mode.mode = .toFlash
    · show (handChanges s.goMask (forwarded word w s)).group g = _
      rw [handChanges_toFlash (s := forwarded word w s) _ hm]; rfl
    · have hs := maskWrite_sweep word w hm
      rcases hc : s.configured g with _ | _
      · exact hs.unconfigured hc
      · have hb := (h.resolve_left hm).resolve_right (by simp [hc])
        refine (hs.group hc).trans ?_
        rw [maskEffect_same (his.symm.trans hb)]; rfl
  · refine ((maskWrite_sweep word w hm).group hc).trans ?_
    rw [maskEffect_set h0 (his.symm.trans h1), setEffect_group]
  · refine ((maskWrite_sweep word w hm).ages g).trans ?_
    have ha : (maskEffect word w s g).ages = true := by
      rcases hw : was with _ | _ <;> rcases hi : is with _ | _ <;> rw [hw, hi] at hne
      · exact absurd rfl hne
      · rw [maskEffect_set hw (his.symm.trans hi), setEffect_ages hst]
      · rw [maskEffect_cleared hw (his.symm.trans hi), clearedEffect_ages s g hst]
      · exact absurd rfl hne
    rw [ha, show (forwarded word w s).configured g = true from hc]
    simp; rfl
  · have hs := maskWrite_sweep word w hm
    have he := maskEffect_cleared h0 (his.symm.trans h1)
    refine ⟨(hs.group hc).trans (by rw [he, clearedEffect_group]), fun hq => ?_⟩
    have hr : ∀ {k d}, (k, lowWord s.clock, subjectOf g.val, d) ∈ (clearedEffect s g (s.group g)).records →
        Records t.queue s k (subjectOf g.val) d := fun hk =>
      hs.records (fun g _ => (changeEffect_regular _ _ g _).length) (show (beginAccess s).queue.held.length ≤ 64 by
        simpa [beginAccess] using hq) hc (by rw [he]; exact hk)
    refine ⟨fun hst => hr ?_, fun hst hlt => hr ?_, fun hst hle => hr ?_⟩
    · unfold clearedEffect; rw [hst]; exact List.mem_singleton.2 rfl
    · rw [clearedEffect_go hst, if_neg (by omega)]; exact List.mem_singleton.2 rfl
    · rw [clearedEffect_go hst, if_pos hle, Effect.enter, hst]; exact List.mem_singleton.2 rfl

/-- The LATE_CANCEL and STOP_HELD records of a write of the GO mask stand in ascending group number (R90). -/
theorem maskWrite_requestRecords {s : State} (word : Nat) (w : BusWrite) (hq : s.queue.held.length ≤ 64) :
    (requestAccepted (handChanges s.goMask (forwarded word w s))).queue.requestRecords =
      s.queue.requestRecords ++ if s.mode.mode = .toFlash then []
        else clearRecords s fun g => s.goMask.getLsbD g.val &&
          !(requestAccepted (handChanges s.goMask (forwarded word w s))).goMask.getLsbD g.val := by
  have hq0 : (forwarded word w s).queue.requestRecords = s.queue.requestRecords := by
    show s.queue.atAccess.requestRecords = _
    simp only [Queue.requestRecords, Queue.contents, Queue.atAccess_held]
  have hmask : (requestAccepted (handChanges s.goMask (forwarded word w s))).goMask = (forwarded word w s).goMask :=
    (handChanges_move _ _).toGroupFrame.goMask
  by_cases hm : s.mode.mode = .toFlash
  · rw [if_pos hm, List.append_nil, ← hq0]
    show (handChanges s.goMask (forwarded word w s)).queue.requestRecords = _
    rw [handChanges_toFlash (s := forwarded word w s) _ hm]
  · rw [if_neg hm, hmask, ← hq0]
    refine ((maskWrite_sweep word w hm).requestRecords (fun g _ => (changeEffect_regular _ _ g _).length)
      (show (beginAccess s).queue.held.length ≤ 64 by simpa [beginAccess] using hq)).trans ?_
    congr 1
    unfold clearRecords
    congr 1; funext g
    dsimp only
    rw [show (forwarded word w s).configured g = s.configured g from rfl]
    rcases hc : s.configured g with _ | _
    · simp
    · rw [if_pos rfl, Bool.true_and]
      rcases Bool.eq_false_or_eq_true (s.goMask.getLsbD g.val) with h0 | h0 <;>
        rcases Bool.eq_false_or_eq_true ((forwarded word w s).goMask.getLsbD g.val) with h1 | h1 <;> rw [h0, h1]
      · rw [maskEffect_same (h1.trans h0.symm)]; simp
      · rw [maskEffect_cleared h0 h1, clearedEffect_requests]; simp
      · rw [maskEffect_set h0 h1, setEffect_requests]; simp
      · rw [maskEffect_same (h1.trans h0.symm)]; simp

/-- Settles O22: the write is a sweep of its changes over the state with the word forwarded, and then accepted. -/
theorem maskWritesForwardAndHandTheChanges : Obligations.MaskWritesForwardAndHandTheChanges := by
  unfold Obligations.MaskWritesForwardAndHandTheChanges
  refine ⟨fun s c word w hc ht => ?_, fun s c word w hc ht => ?_, fun s c word w hc ht hq => ?_⟩
  · intro old d raw
    refine ⟨forwardedMask word w s, fun k hk => ?_, _, exec_mask_taken hc ht, ?_⟩
    · rw [forwardedMask, clampWord_getLsbD s word _ hk, mirror_base]; rfl
    · rw [requestAccepted_handChanges, forwarded_page]
      exact (handChanges_move s.goMask (forwarded word w s)).withPage _ (q := s.queue) (by simp [forwarded, beginAccess])
  · exact ⟨_, exec_mask_taken hc ht, maskWrite_groups s word w⟩
  · exact ⟨_, exec_mask_taken hc ht, maskWrite_requestRecords word w hq⟩

end Sys2Proof.Machine

/-! PROOFS. Changes of mode: the effects of their orders, and what every change leaves (R45 to R47, R51, R56 to R58, R60). -/

namespace Sys2Proof.Machine

open Sys2Proof

/-! ### The orders' effects -/

/-- What an order of the entry to mode `m` does to a group with record `x`: how many records it submits, which of them end a request, and
what it holds back. -/
structure Ordered (m : Mode) (s : State) (g : GroupNo) (e : Effect) : Prop where
  length : e.records.length ≤ 2
  requests : e.requests = if m = .toFlash ∧ s.goMask.getLsbD g.val = true then stopRecords s g else []
  timers : e.timers = (decide (m = .allStop) || decide (e.group.state ≠ (s.group g).state))
  elapsed : e.elapsed = ((decide (m = .allStop) || decide (e.group.state ≠ (s.group g).state)) &&
    (decide (m = .allStop) || decide (e.group.state = .clearing)))
  ages : e.ages = (decide (m = .allStop) || decide (e.group.state ≠ (s.group g).state) ||
    (decide (m = .toFlash) && decide ((s.group g).state = .stop) && s.goMask.getLsbD g.val))

/-- A regular effect that raises no request record and holds the request age back where it holds the timers back. -/
theorem Ordered.of_regular {m : Mode} {s : State} {g : GroupNo} {e : Effect} (h : Regular s g (s.group g) e) (hm : m ≠ .allStop)
    (hm' : m ≠ .toFlash) (hr : e.requests = []) (ha : e.ages = e.timers) : Ordered m s g e where
  length := h.length
  requests := by simp [hm', hr]
  timers := by simp [hm, h.timers]
  elapsed := by simp [hm, h.elapsed]
  ages := by simp [hm, hm', ha, h.timers]

theorem orderEffect_ordered {m : Mode} (hm : m ≠ .allStop) (hm' : m ≠ .toFlash) {st : GroupState} (hst : st ≠ .clearing) (s : State)
    (g : GroupNo) : Ordered m s g (orderEffect st s g (s.group g)) := by
  refine .of_regular (orderEffect_regular s g _ hst) hm hm' ?_ ?_ <;> unfold orderEffect <;> split <;> rfl

theorem holdEffect_ordered (s : State) (g : GroupNo) : Ordered .normal s g (holdEffect s g (s.group g)) := by
  refine .of_regular (holdEffect_regular s g _) (by simp) (by simp) ?_ ?_ <;> unfold holdEffect <;> split <;> first
    | rfl
    | (split <;> rfl)

theorem allStopEffect_ordered (s : State) (g : GroupNo) : Ordered .allStop s g (allStopEffect s g (s.group g)) := by
  unfold allStopEffect
  split <;> constructor <;> simp [Effect.enter, Effect.requests, groupRecord]

/-- The record of the order of ALL_STOP entry, for a group in FLASHING or UNLIT (R51). -/
theorem allStopEffect_states (s : State) (g : GroupNo) {x : Group} (h : x.state = .flashing ∨ x.state = .unlit) :
    (allStopEffect s g x).states = stateRecords s g x.state (allStopEffect s g x).group.state := by
  unfold allStopEffect
  split <;> rcases h with h | h <;> simp [Effect.enter, Effect.states, stateRecords, groupRecord, h]

/-! ### TO_FLASH entry, for one group -/

/-- TO_FLASH entry finds nothing to do for a group in none of STOP, PREPARE and GO. -/
theorem toFlashEffect_idle {s : State} {g : GroupNo} {x : Group} (h1 : x.state ≠ .stop) (h2 : x.state.active = false) :
    toFlashEffect s g x = .stay x := by
  have he : endEffect s g x = .stay x := by
    unfold endEffect clearedEffect
    split
    · obtain ⟨_ | _ | _ | _ | _ | _, _, _, _, _, _, _, _⟩ := x
      case stop => exact absurd rfl h1
      case prepare | go => simp [GroupState.active] at h2
      all_goals rfl
    · rfl
  rw [toFlashEffect, he, Effect.stay_andThen, holdEffect_stay (.inr (.inr (by exact h2)))]; rfl

/-- TO_FLASH entry sets the request age of a group in STOP with its GO-mask bit set to 0. -/
theorem toFlashEffect_stop {s : State} {g : GroupNo} {x : Group} (h : x.state = .stop) :
    toFlashEffect s g x = if s.goMask.getLsbD g.val then ageEffect x else .stay x := by
  have he : endEffect s g x = if s.goMask.getLsbD g.val then ageEffect x else .stay x := by
    unfold endEffect clearedEffect; rw [h]
  have hst : ((if s.goMask.getLsbD g.val then ageEffect x else .stay x) : Effect).group.state = .stop := by split <;> exact h
  rw [toFlashEffect, he, holdEffect_stay (.inr (.inr (by rw [hst]; rfl))), Effect.andThen_stay]

/-- TO_FLASH entry leaves a group in PREPARE with its cancel noted, unless an asserted line aborts it. -/
theorem toFlashEffect_prepare {s : State} {g : GroupNo} {x : Group} (ha : s.holdsAct = true) (h : x.state = .prepare) :
    toFlashEffect s g x =
      (if s.goMask.getLsbD g.val then
        ⟨{ x with lateCancel := true }, [requestRecord s g .lateCancel (s.prepareTime g - x.prepareTimer)], false, false, false, false⟩
        else .stay x : Effect).andThen
      (if s.heldByLine g then .enter s g x .stop none false
        else .stay (if s.goMask.getLsbD g.val then { x with lateCancel := true } else x)) := by
  obtain ⟨st⟩ := x; obtain rfl : st = .prepare := h
  unfold toFlashEffect endEffect clearedEffect holdEffect
  rw [ha]
  rcases s.goMask.getLsbD g.val with _ | _ <;> rcases s.heldByLine g with _ | _ <;> rfl

/-- TO_FLASH entry stops a group in GO at once where MG has run or an asserted line masks it, and holds the stop until MG otherwise. -/
theorem toFlashEffect_go {s : State} {g : GroupNo} {x : Group} (ha : s.holdsAct = true) (h : x.state = .go) :
    toFlashEffect s g x =
      if s.goMask.getLsbD g.val then
        if s.minimumGo g ≤ x.goTimer then .enter s g x .clearing (some 0) false
        else (⟨{ x with heldStop := true }, [requestRecord s g .stopHeld (s.minimumGo g - x.goTimer)], false, false, false, false⟩ : Effect).andThen
          (if s.heldByLine g then .enter s g x .clearing (some 0) false else .stay { x with heldStop := true })
      else if s.heldByLine g then .enter s g x .clearing (some 0) false else .stay x := by
  obtain ⟨st, _, n⟩ := x; obtain rfl : st = .go := h
  unfold toFlashEffect endEffect
  rw [clearedEffect_go rfl]
  unfold holdEffect
  rw [ha]
  by_cases hm : s.minimumGo g ≤ n <;> simp only [hm, if_true, if_false] <;>
    rcases s.goMask.getLsbD g.val with _ | _ <;> rcases s.heldByLine g with _ | _ <;> rfl

theorem toFlashEffect_regular {s : State} (g : GroupNo) (x : Group) (ha : s.holdsAct = true) : Regular s g x (toFlashEffect s g x) := by
  rcases hx : x.state with _ | _ | _ | _ | _ | _
  case stop =>
    rw [toFlashEffect_stop hx]
    split
    · exact ageEffect_regular s g x
    · exact stay_regular s g rfl
  case prepare =>
    rw [toFlashEffect_prepare ha hx]
    rcases s.goMask.getLsbD g.val with _ | _ <;> rcases s.heldByLine g with _ | _ <;> constructor <;>
      simp [Effect.andThen, Effect.stay, Effect.enter, Effect.states, stateRecords, requestRecord, groupRecord, hx]
  case go =>
    rw [toFlashEffect_go ha hx]
    rcases s.goMask.getLsbD g.val with _ | _ <;> rcases s.heldByLine g with _ | _ <;> by_cases hm : s.minimumGo g ≤ x.goTimer <;>
      constructor <;>
      simp [hm, Effect.andThen, Effect.stay, Effect.enter, Effect.states, stateRecords, requestRecord, groupRecord, hx]
  all_goals
    rw [toFlashEffect_idle (by simp [hx]) (by simp [hx, GroupState.active])]
    exact stay_regular s g rfl

/-- What TO_FLASH entry leaves of a group's record (R56, R62). -/
theorem toFlashEffect_group {s : State} (g : GroupNo) (ha : s.holdsAct = true) :
    (toFlashEffect s g (s.group g)).group = atToFlash s g := by
  unfold atToFlash afterCleared underHold
  rcases hg : s.group g with ⟨_ | _ | _ | _ | _ | _, _, n, _, _, _, _, _⟩
  case stop =>
    rw [toFlashEffect_stop rfl]
    rcases s.goMask.getLsbD g.val with _ | _ <;> rcases s.heldByLine g with _ | _ <;> rfl
  case prepare =>
    rw [toFlashEffect_prepare ha rfl]
    rcases s.goMask.getLsbD g.val with _ | _ <;> rcases s.heldByLine g with _ | _ <;> rfl
  case go =>
    rw [toFlashEffect_go ha rfl]
    rcases s.goMask.getLsbD g.val with _ | _ <;> rcases s.heldByLine g with _ | _ <;> by_cases hm : s.minimumGo g ≤ n <;>
      simp [hm, Effect.andThen, Effect.stay, Effect.enter, Group.cleared]
  all_goals
    rw [toFlashEffect_idle (by simp) rfl]
    rcases s.goMask.getLsbD g.val with _ | _ <;> rcases s.heldByLine g with _ | _ <;> rfl

theorem toFlashEffect_ordered {s : State} (g : GroupNo) (ha : s.holdsAct = true) :
    Ordered .toFlash s g (toFlashEffect s g (s.group g)) := by
  have hr := toFlashEffect_regular g (s.group g) ha
  refine ⟨hr.length, ?_, by simp [hr.timers], by simp [hr.elapsed], ?_⟩
  · have hend : (toFlashEffect s g (s.group g)).requests = (endEffect s g (s.group g)).requests := by
      have hh : ∀ x, (holdEffect s g x).requests = [] := fun x => by
        unfold holdEffect; split
        · split <;> rfl
        · rfl
      rw [toFlashEffect, Effect.requests_andThen, hh, List.append_nil]
    rw [hend, endEffect]
    rcases s.goMask.getLsbD g.val with _ | _
    · rfl
    · simpa using clearedEffect_requests s g
  · rcases hx : (s.group g).state with _ | _ | _ | _ | _ | _
    case stop =>
      rw [toFlashEffect_stop hx]
      rcases s.goMask.getLsbD g.val with _ | _ <;> simp [ageEffect, Effect.stay, hx]
    case prepare =>
      rw [toFlashEffect_prepare ha hx]
      rcases s.goMask.getLsbD g.val with _ | _ <;> rcases s.heldByLine g with _ | _ <;>
        simp [Effect.andThen, Effect.stay, Effect.enter, hx]
    case go =>
      rw [toFlashEffect_go ha hx]
      rcases s.goMask.getLsbD g.val with _ | _ <;> rcases s.heldByLine g with _ | _ <;>
        by_cases hm : s.minimumGo g ≤ (s.group g).goTimer <;> simp [hm, Effect.andThen, Effect.stay, Effect.enter, hx]
    all_goals
      rw [toFlashEffect_idle (by simp [hx]) (by simp [hx, GroupState.active])]
      simp [Effect.stay, hx]

end Sys2Proof.Machine

/-! PROOFS. What every change of mode leaves, from the effects of its orders. -/

namespace Sys2Proof.Machine

open Sys2Proof

/-- The state from which the orders of a change of mode move the groups: the new mode, and its MODE record submitted (R45). -/
def modeStart (m : Mode) (c : Cause) (s : State) : State :=
  submit .mode Config.absent (modeDetail m s.mode.mode c) (setMode m c s)

theorem changeMode_eq (m : Mode) (c : Cause) (orders : State → State) (s : State) :
    changeMode m c orders s = orders (modeStart m c s) := rfl

/-- The MODE record of a change of mode. -/
def modeRecord (m : Mode) (c : Cause) (s : State) : Said := (.mode, lowWord s.clock, 0xFF, modeDetail m s.mode.mode c)

/-- Where the stopped mode's timer runs after the moves of an entry, it started in them. -/
theorem TimerMove.of_stopped {s t : State} (h : TimerMove s t) (hr : s.mode.running = false) (hh : s.parts.heldModeTimer = false)
    (ha : s.mode.allStopTimer = 0) (hf : s.mode.flashEntryTimer = 0) :
    t.mode.startFlashTimer = s.mode.startFlashTimer ∧ t.mode.allStopTimer = 0 ∧ t.mode.flashEntryTimer = 0 ∧
      t.parts.heldModeTimer = (t.mode.running && s.parts.modeTimer) := by
  rcases h with h | ⟨-, h⟩
  · rw [h.mode, h.heldModeTimer, hr, hh]; exact ⟨rfl, ha, hf, rfl⟩
  · rw [h.mode, h.heldModeTimer]; exact ⟨rfl, rfl, rfl, rfl⟩

/-- What the frame of a change of mode leaves to the command that makes it: normal-pending, the request page beside the GO mask, the bus and
the count of liveness losses. -/
structure Aside where
  normalPending : Bool
  word8 : MirrorWord
  liveness : Nat
  refusals : Nat
  bus : BusPins
  livenessLosses : Nat

/-- The state with other values in those places. -/
def State.withAside (a : Aside) (s : State) : State :=
  { s with
    mode := { s.mode with normalPending := a.normalPending }
    page := { s.page with word8 := a.word8, liveness := a.liveness, refusals := a.refusals }
    bus := a.bus
    store := { s.store with nv := { s.store.nv with livenessLosses := a.livenessLosses } } }

/-- The values in those places. -/
def State.aside (s : State) : Aside :=
  ⟨s.mode.normalPending, s.page.word8, s.page.liveness, s.page.refusals, s.bus, s.store.nv.livenessLosses⟩

/-- A queue that a record of another block may have lengthened. -/
structure Lengthened (q q' : Queue) : Prop where
  length : q'.held.length ≤ q.held.length + 1
  groupStates : q'.groupStates = q.groupStates
  requestRecords : q'.requestRecords = q.requestRecords

/-- The state from which a command that has set `a` aside, and whose queue is `q`, changes the mode. -/
def changeStart (m : Mode) (c : Cause) (a : Aside) (q : Queue) (s : State) : State := modeStart m c { s.withAside a with queue := q }

/-- A change of mode whose orders have the effects `eff`, with the liveness timer's advance held back as `b` says. -/
theorem modeChange_of_sweep {m : Mode} {c : Cause} {a a' : Aside} {q : Queue} {s t : State} {eff : GroupNo → Effect}
    (h : Sweep eff (changeStart m c a q s) t) (hq : s.queue.held.length ≤ 60 → Lengthened s.queue q)
    (ho : ∀ g, s.configured g = true → Ordered m s g (eff g))
    (hs : (m = .allStop → ∀ g, s.configured g = true → (s.group g).state = .flashing ∨ (s.group g).state = .unlit) →
      ∀ g, s.configured g = true → (eff g).states = stateRecords s g (s.group g).state (eff g).group.state)
    (hr : (m = .allStop → (∃ g, s.configured g = true) ∧ ∀ g, s.configured g = true → (s.group g).state ≠ .stop) →
      t.mode.running = (decide (m = .allStop ∨ m = .toFlash) && t.allStopped))
    {b : Bool} (hb : b = if m = .allStop then s.parts.liveness else s.parts.heldLiveness) :
    ModeChange s { t.withAside a' with parts := { t.parts with heldLiveness := b } } m c := by
  have hf := h.frame
  have htimers := (Pass.mode h).of_stopped rfl rfl rfl rfl
  have hqueue : t.queue = q.submits (modeRecord m c s :: sweepRecords (changeStart m c a q s) eff) := h.queue
  have hlen : (modeRecord m c s :: sweepRecords (changeStart m c a q s) eff).length ≤ 65 := by
    have := sweepRecords_length (s := changeStart m c a q s) (eff := eff) fun g hc => (ho g hc).length
    rw [List.length_cons]; omega
  have hroom : s.queue.held.length ≤ 60 →
      q.held.length + (modeRecord m c s :: sweepRecords (changeStart m c a q s) eff).length ≤ 128 := fun hl => by
    have := (hq hl).length
    omega
  have hfilter : ∀ p : Said → Bool, p (modeRecord m c s) = false →
      (modeRecord m c s :: sweepRecords (changeStart m c a q s) eff).filter p =
        (List.finRange 32).flatMap fun g => if s.configured g then (eff g).records.filter p else [] := fun p hp => by
    rw [List.filter_cons, hp]
    exact sweepRecords_filter (changeStart m c a q s) eff p
  exact {
    mode := hf.modeMode
    cause := hf.modeCause
    timers := ⟨htimers.1, htimers.2.1, htimers.2.2.1⟩
    filters := ⟨hf.h0, hf.h1, hf.switch⟩
    requests := ⟨(congrArg RequestPage.word0 hf.page :), (congrArg RequestPage.word1 hf.page :)⟩
    unconfigured := fun g hg => h.unconfigured (s := changeStart m c a q s) hg
    resets := ⟨hf.powerOnHeld, hf.externalHeld⟩
    clock := hf.clock
    arbiter := hf.arbiter
    tap := hf.tap
    link := hf.link
    latches := hf.latches
    lamps := hf.lamps
    detectors := hf.detectors
    pending := hf.pending
    record := fun hl => by
      rw [records_iff]
      show _ ∈ t.queue.contents
      rw [hqueue]
      exact Queue.mem_submits _ (hroom hl) List.mem_cons_self
    groupRecords := fun hl hst => by
      show t.queue.groupStates = _
      rw [hqueue, Queue.submits_groupStates _ (hroom hl), (hq hl).groupStates, hfilter _ (by simp [modeRecord]), moveRecords_eq]
      congr 2; funext g
      show _ = stateRecords s g (s.group g).state (t.group g).state
      rcases hc : s.configured g with _ | _
      · rw [h.unconfigured (s := changeStart m c a q s) hc]; exact (stateRecords_same s g _).symm
      · rw [h.group (s := changeStart m c a q s) hc, if_pos rfl]; exact hs hst g hc
    requestRecords := fun hl => by
      show t.queue.requestRecords = _
      rw [hqueue, Queue.submits_requestRecords _ (hroom hl), (hq hl).requestRecords, hfilter _ (by simp [modeRecord])]
      congr 1
      have he : ∀ g, (if s.configured g = true then (eff g).requests else []) =
          if s.configured g = true ∧ m = .toFlash ∧ s.goMask.getLsbD g.val = true then stopRecords s g else [] := fun g => by
        rcases hc : s.configured g with _ | _
        · simp
        · rw [if_pos rfl, (ho g hc).requests]; simp
      refine Eq.trans (congrArg (fun f => (List.finRange 32).flatMap f) (funext he)) ?_
      by_cases hm : m = .toFlash
      · rw [if_pos hm]; unfold clearRecords
        congr 1; funext g
        simp [hm]
      · simp [hm]
    running := hr
    heldModeTimer := htimers.2.2.2
    heldLiveness := hb
    parts := by
      show ({ t.parts with heldLiveness := b } : EventParts) = _
      rw [hf.parts]; rfl
    heldBack := fun g => by
      have hg : s.configured g = true → t.group g = (eff g).group := fun hc => h.group (s := changeStart m c a q s) hc
      unfold entersState
      constructor
      · refine (h.timers g).trans ?_
        show (s.parts.heldTimers.getLsbD g.val || (s.parts.sequencer && (s.configured g && _))) =
          (_ || (_ && (_ && (_ || decide ((t.group g).state ≠ _)))))
        rcases hc : s.configured g with _ | _
        · rfl
        · rw [hg hc, (ho g hc).timers]
      · refine (h.elapsed g).trans ?_
        show (s.parts.heldElapsed.getLsbD g.val || (s.parts.sequencer && (s.configured g && _))) =
          (_ || (_ && (_ && (_ || decide ((t.group g).state ≠ _))) && (_ || decide ((t.group g).state = _))))
        rcases hc : s.configured g with _ | _
        · simp
        · rw [hg hc, (ho g hc).elapsed]; simp [Bool.and_assoc]
    heldAges := fun g => by
      unfold entersState
      refine (h.ages g).trans ?_
      show (s.parts.heldAges.getLsbD g.val || (s.parts.sequencer && (s.configured g && _))) =
        (_ || (_ && ((_ && (_ || decide ((t.group g).state ≠ _))) || _)))
      rcases hc : s.configured g with _ | _
      · simp
      · rw [h.group (s := changeStart m c a q s) hc, (ho g hc).ages]; simp }

end Sys2Proof.Machine

/-! PROOFS. The entries to each mode, as changes of mode (R45, R48, R51, R52, R56 to R58, R60). -/

namespace Sys2Proof.Machine

open Sys2Proof

variable {a a' : Aside} {q : Queue} {s t u : State} {m : Mode} {c : Cause}

/-- What an order does is told alike of the state before the change of mode and of the state from which the orders move the groups. -/
theorem Ordered.ofStart {m m' : Mode} {g : GroupNo} {e : Effect} (h : Ordered m (changeStart m' c a q s) g e) : Ordered m s g e :=
  ⟨h.length, h.requests, h.timers, h.elapsed, h.ages⟩

theorem Lengthened.refl (q : Queue) : Lengthened q q := ⟨by omega, rfl, rfl⟩

theorem TimerMove.not_running (h : TimerMove s t) (hs : ¬s.stopping) (hr : s.mode.running = false) : t.mode.running = false := by
  rw [(h.resolve_right fun k => hs k.1).mode]; exact hr

/-- A change to a mode whose timer no entry to STOP starts. -/
theorem modeChange_of_orders {eff : GroupNo → Effect} (hm : m ≠ .allStop) (hm' : m ≠ .toFlash)
    (h : Sweep eff (changeStart m c a q s) t) (hq : s.queue.held.length ≤ 60 → Lengthened s.queue q)
    (ho : ∀ g, Ordered m s g (eff g)) (hs : ∀ g, (eff g).states = stateRecords s g (s.group g).state (eff g).group.state) :
    ModeChange s (t.withAside a') m c := by
  refine modeChange_of_sweep (a' := a') h hq (fun g _ => ho g) (fun _ g _ => hs g) (fun _ => ?_) (b := t.parts.heldLiveness) ?_
  · rw [(Pass.mode h).not_running (by simp [State.stopping, changeStart, modeStart, setMode, submit, hm, hm']) rfl]
    simp [hm, hm']
  · rw [if_neg hm, h.frame.parts]; rfl

theorem setNormalPending_withAside (b : Bool) (a : Aside) (s : State) : (setNormalPending b s).withAside a = s.withAside a := rfl

theorem startLiveness_withAside (a : Aside) (s : State) :
    (startLiveness s).withAside a = { s.withAside a with parts := { s.parts with heldLiveness := s.parts.liveness } } := rfl

theorem withAside_heldLiveness (a : Aside) (s : State) :
    s.withAside a = { s.withAside a with parts := { s.parts with heldLiveness := s.parts.heldLiveness } } := rfl

/-- From `s` a command has begun: it has set values aside and perhaps submitted a record of another block, and nothing else. -/
def Begun (s u : State) : Prop :=
  ∃ a q, u = { s.withAside a with queue := q } ∧ (s.queue.held.length ≤ 60 → Lengthened s.queue q)

theorem Begun.withAside (a : Aside) (s : State) : Begun s (s.withAside a) := ⟨a, s.queue, rfl, fun _ => .refl _⟩

theorem Begun.refl (s : State) : Begun s s := .withAside s.aside s

theorem ModeChange.of_withAside (h : ∀ a, ModeChange s (t.withAside a) m c) : ModeChange s t m c := h t.aside

/-- A change of mode is its orders, from the state in which it has made the change. -/
theorem changeMode_start (m : Mode) (c : Cause) (orders : State → State) (a : Aside) (q : Queue) (s : State) :
    changeMode m c orders { s.withAside a with queue := q } = orders (changeStart m c a q s) := rfl

/-- Entry to FLASH with its orders (R57, R58). -/
theorem flashEntry_change (c : Cause) (hu : Begun s u) : ModeChange s (flashEntry c u) .flash c := by
  obtain ⟨a, q, rfl, hq⟩ := hu
  refine .of_withAside fun a' => ?_
  rw [flashEntry, changeMode_start]
  exact modeChange_of_orders (by simp) (by simp) (orderAll_sweep .flashing (changeStart .flash c a q s)) hq
    (fun g => (orderEffect_ordered (by simp) (by simp) (by simp) _ g).ofStart)
    fun g => (orderEffect_regular (changeStart .flash c a q s) g _ (by simp)).states

/-- Entry to DARK (R60). -/
theorem darkEntry_change (hu : Begun s u) : ModeChange s (darkEntry u) .dark .software := by
  obtain ⟨a, q, rfl, hq⟩ := hu
  refine .of_withAside fun a' => ?_
  rw [darkEntry, changeMode_start, setNormalPending_withAside]
  exact modeChange_of_orders (by simp) (by simp) (orderAll_sweep .unlit (changeStart .dark .software a q s)) hq
    (fun g => (orderEffect_ordered (by simp) (by simp) (by simp) _ g).ofStart)
    fun g => (orderEffect_regular (changeStart .dark .software a q s) g _ (by simp)).states

/-- Entry to NORMAL (R52, R62). -/
theorem normalEntry_change (hu : Begun s u) : ModeChange s (normalEntry u) .normal s.mode.cause := by
  obtain ⟨a, q, rfl, hq⟩ := hu
  refine .of_withAside fun a' => ?_
  rw [normalEntry, changeMode_start]
  exact modeChange_of_orders (by simp) (by simp) (holdSweep_sweep (changeStart .normal s.mode.cause a q s)) hq
    (fun g => (holdEffect_ordered _ g).ofStart)
    fun g => (holdEffect_regular (changeStart .normal s.mode.cause a q s) g _).states

/-- A sweep that does nothing. -/
theorem Sweep.refl (s : State) : Sweep (fun g => .stay (s.group g)) s s := by
  have he : (fun g => (Effect.stay (s.group g)).onConfigured s g) = fun g => Effect.stay (s.group g) := by
    funext g; unfold Effect.onConfigured; split <;> rfl
  unfold Sweep
  rw [he]
  refine ⟨.refl s, fun _ _ => rfl, fun _ _ => rfl, ?_, fun _ => ?_, fun _ => ?_, fun _ => ?_, fun _ => ?_, .inl (.refl s)⟩
  · have hn : ((List.finRange 32).flatMap fun g => (Effect.stay (s.group g)).records) = [] := List.flatMap_eq_nil_iff.2 fun _ _ => rfl
    rw [hn, Queue.submits_nil]
  all_goals simp [Effect.stay]

/-- Entry to FLASH at the end of START_FLASH, which orders no group (R48). -/
theorem resetFlash_change (hu : Begun s u) : ModeChange s (changeMode .flash .reset id u) .flash .reset := by
  obtain ⟨a, q, rfl, hq⟩ := hu
  refine .of_withAside fun a' => ?_
  rw [changeMode_start]
  have hg : ∀ g, (changeStart .flash .reset a q s).group g = s.group g := fun _ => rfl
  refine modeChange_of_orders (by simp) (by simp) (Sweep.refl (changeStart .flash .reset a q s)) hq (fun g => ?_) fun g => ?_
  · exact .of_regular (stay_regular s g (congrArg Group.state (hg g))) (by simp) (by simp) rfl rfl
  · exact (stay_regular s g (congrArg Group.state (hg g))).states

/-! ### The stopped modes -/

/-- In a stopped mode whose timer stands, moves of groups start it exactly where they leave every configured group in STOP. -/
theorem StopLaw.running (h : StopLaw s t) (hs : s.stopping) (hr : s.mode.running = false) (ha : s.allStopped = false) :
    t.mode.running = t.allStopped := by
  rcases ht : t.allStopped with _ | _
  · rw [(h.stands (by rw [lastEntersStop, ht]; simp)).mode, hr]
  · rw [(h.starts ((lastEntersStop_iff s t).2 ⟨hs, hr, ha, ht⟩)).mode]

theorem allStopOrder_stopLaw {g : GroupNo} {s : State} (hc : s.configured g = true) (ho : (s.group g).state ≠ .stop) :
    StopLaw s (allStopOrder g s) := by
  unfold allStopOrder
  split
  · exact enterClearing_stopLaw ho
  · exact enterStop_stopLaw (some 0) hc ho

/-- Entry to ALL_STOP (R51, R52, R54). -/
theorem allStopEntry_change (hu : Begun s u) : ModeChange s (allStopEntry u) .allStop .software := by
  obtain ⟨a, q, rfl, hq⟩ := hu
  refine .of_withAside fun a' => ?_
  rw [allStopEntry, changeMode_start, startLiveness_withAside]
  have h := allStopOrders_sweep (changeStart .allStop .software a q s)
  refine modeChange_of_sweep (a' := a') h hq (fun g _ => (allStopEffect_ordered _ g).ofStart)
    (fun hst g hc => allStopEffect_states (changeStart .allStop .software a q s) g (hst rfl g hc)) (fun hst => ?_)
    (b := (forGroups allStopOrder (changeStart .allStop .software a q s)).parts.liveness) ?_
  · obtain ⟨⟨i, hi⟩, hns⟩ := hst rfl
    have law : StopLaw (changeStart .allStop .software a q s) (forGroups allStopOrder (changeStart .allStop .software a q s)) :=
      forGroups_stopLaw allStopOrder_moves fun g s' hc hf hg =>
        allStopOrder_stopLaw ((hf.configured g).trans hc) (by rw [hg]; exact hns g hc)
    have ha : (changeStart .allStop .software a q s).allStopped = false := by
      by_contra k
      exact hns i hi ((allStopped_iff (changeStart .allStop .software a q s)).1 (by simpa only [Bool.not_eq_false] using k) i hi)
    rw [law.running (.inl rfl) rfl ha]; simp
  · rw [h.frame.parts]; rfl

/-- A pass after a step that reaches no group. -/
theorem Pass.after {l : List GroupNo} {eff : GroupNo → Effect} {g : GroupNo} (h : Turn g (.stay (s.group g)) s u)
    (k : Pass l eff u t) : Pass l eff s t where
  frame := h.frame.trans k.frame
  group := k.group
  others := fun i hi => (k.others i hi).trans <| by
    by_cases e : i = g
    · rw [e]; exact h.group
    · exact h.moves.2 i e
  queue := by rw [k.queue, h.queue]; rfl
  timers := fun i => by rw [k.timers i, h.timers i, h.frame.sequencer]; simp [Effect.stay]
  elapsed := fun i => by rw [k.elapsed i, h.elapsed i, h.frame.sequencer]; simp [Effect.stay]
  ages := fun i => by rw [k.ages i, h.ages i, h.frame.sequencer]; simp [Effect.stay]
  calls := fun i => by rw [k.calls i, h.calls i, h.frame.standing]; simp [Effect.stay]
  mode := h.mode.trans h.frame.modeTimerPart k.mode

/-- The orders of TO_FLASH entry (R56, R57, R62). -/
theorem toFlashOrders_sweep (s : State) :
    Sweep (fun g => toFlashEffect s g (s.group g)) s (forGroups toFlashTurn (startStoppedTimer s)) := by
  have h := startStoppedTimer_turn 0 s
  have hg : ∀ g, (startStoppedTimer s).group g = s.group g := startStoppedTimer_group s
  refine Pass.after h (foldl_pass (s := s) (fun g s' hs hx => ?_) _ _ (List.nodup_finRange 32) h.frame fun g _ => hg g)
  rw [hs.configured, Effect.onConfigured]
  split
  · rename_i hc; exact toFlashTurn_turn hs hx hc
  · exact stay_turn hx

/-- After the orders of TO_FLASH entry the flash-entry timer runs exactly where every configured group is in STOP (R57). -/
theorem toFlashOrders_running (hs : s.stopping) (hr : s.mode.running = false) :
    (forGroups toFlashTurn (startStoppedTimer s)).mode.running = (forGroups toFlashTurn (startStoppedTimer s)).allStopped := by
  have law : StopLaw (startStoppedTimer s) (forGroups toFlashTurn (startStoppedTimer s)) :=
    forGroups_stopLaw toFlashTurn_moves fun g s' _ _ _ => toFlashTurn_stopLaw g s'
  have hf := (startStoppedTimer_moves 0 s).1
  rcases startStoppedTimer_cases s with ⟨-, -, ha, hst⟩ | ⟨hn, he⟩
  · have hua : (startStoppedTimer s).allStopped = true := by
      rw [allStopped_iff] at ha ⊢
      exact fun g hg => (congrArg Group.state (startStoppedTimer_group s g)).trans (ha g ((hf.configured g).symm.trans hg))
    have hrun : (startStoppedTimer s).mode.running = true := by rw [hst.mode]
    rw [law.allStopped (forGroups_move toFlashTurn_moves _) (hf.stopping.2 hs) hua, (law.stands (by simp [lastEntersStop, hrun])).mode,
      hrun]
  · have ha : s.allStopped = false := by
      by_contra k
      exact hn ⟨hs, hr, by simpa using k⟩
    rw [he] at law ⊢
    exact law.running hs hr ha

/-- Entry to TO_FLASH (R56, R57, R62). -/
theorem toFlashEntry_change (c : Cause) (hu : Begun s u) : ModeChange s (toFlashEntry c u) .toFlash c := by
  obtain ⟨a, q, rfl, hq⟩ := hu
  refine .of_withAside fun a' => ?_
  rw [toFlashEntry, changeMode_start, withAside_heldLiveness]
  have h := toFlashOrders_sweep (changeStart .toFlash c a q s)
  have hact : (changeStart .toFlash c a q s).holdsAct = true := rfl
  refine modeChange_of_sweep (a' := a') h hq (fun g _ => (toFlashEffect_ordered g hact).ofStart)
    (fun _ g _ => (toFlashEffect_regular (s := changeStart .toFlash c a q s) g _ hact).states) (fun _ => ?_)
    (b := (forGroups toFlashTurn (startStoppedTimer (changeStart .toFlash c a q s))).parts.heldLiveness) ?_
  · rw [toFlashOrders_running (.inr rfl) rfl]; simp
  · rw [h.frame.parts]; rfl

/-! ### The groups after an entry -/

theorem orderEffect_group (st : GroupState) (s : State) (g : GroupNo) (x : Group) :
    (orderEffect st s g x).group = x.ordered st := by
  unfold orderEffect Group.ordered
  split <;> rfl

theorem flashEntry_group (c : Cause) {g : GroupNo} (hc : s.configured g = true) :
    (flashEntry c s).group g = (s.group g).ordered .flashing :=
  ((orderAll_sweep .flashing (modeStart .flash c s)).group hc).trans (orderEffect_group ..)

theorem darkEntry_group {g : GroupNo} (hc : s.configured g = true) : (darkEntry s).group g = (s.group g).ordered .unlit := by
  rw [darkEntry, setNormalPending_group]
  exact ((orderAll_sweep .unlit (modeStart .dark .software s)).group hc).trans (orderEffect_group ..)

theorem allStopEntry_atAllStop {g : GroupNo} (hc : s.configured g = true) : (allStopEntry s).group g = atAllStop s g :=
  allStopEntry_group s g hc

theorem toFlashEntry_group (c : Cause) {g : GroupNo} (hc : s.configured g = true) : (toFlashEntry c s).group g = atToFlash s g :=
  ((toFlashOrders_sweep (modeStart .toFlash c s)).group hc).trans (toFlashEffect_group (s := modeStart .toFlash c s) g rfl)

end Sys2Proof.Machine

/-! PROOFS. The mode controller's expiries (R48, R52, R54, R57). -/

namespace Sys2Proof.Machine

open Sys2Proof

/-- The mode timer's part where the timer runs is its advance. -/
theorem modeTimerPart_runs {s : State} (hp : s.parts.modeTimer = true) (hh : s.parts.heldModeTimer = false) (hr : s.mode.running = true) :
    modeTimerRuns s = true ∧ modeTimerPart s = advanceModeTimer { s with parts := { s.parts with modeTimer := false } } := by
  have hruns : modeTimerRuns s = true := by simp [modeTimerRuns, hp, hh, hr]
  have he : ({ s with parts := { s.parts with modeTimer := false, heldModeTimer := false } } : State) =
      { s with parts := { s.parts with modeTimer := false } } := by rw [← hh]
  exact ⟨hruns, by rw [modeTimerPart, if_pos hp, hruns, if_pos rfl, he]⟩

/-- The liveness timer's part where the timer runs is its advance. -/
theorem livenessPart_runs {s : State} (hp : s.parts.liveness = true) (hh : s.parts.heldLiveness = false)
    (hm : s.mode.mode.supervised = true) :
    livenessRuns s = true ∧ livenessPart s = advanceLiveness { s with parts := { s.parts with liveness := false } } := by
  have hruns : livenessRuns s = true := by simp [livenessRuns, hp, hh, hm]
  have he : ({ s with parts := { s.parts with liveness := false, heldLiveness := false } } : State) =
      { s with parts := { s.parts with liveness := false } } := by rw [← hh]
  exact ⟨hruns, by rw [livenessPart, if_pos hp, hruns, if_pos rfl, he]⟩

/-- What an entry to a mode leaves beside the groups and the queue. -/
structure Entered (m : Mode) (s t : State) : Prop where
  normalPending : t.mode.normalPending = s.mode.normalPending
  page : t.page = { s.page with
    liveness := if m.supervised then s.page.liveness else 0, refusals := if m = .flash then 0 else s.page.refusals }
  store : t.store = s.store
  bus : t.bus = s.bus

theorem Entered.of_frame {m : Mode} {c : Cause} {s t : State} (h : GroupFrame (setMode m c s) t) : Entered m s t := by
  have hm := congrArg ModeControl.normalPending h.mode
  exact ⟨hm, h.page, h.store, h.bus⟩

theorem flashEntry_entered (c : Cause) (s : State) : Entered .flash s (flashEntry c s) := .of_frame (flashEntry_move c s)

theorem normalEntry_entered (s : State) : Entered .normal s (normalEntry s) := .of_frame (normalEntry_move s)

theorem toFlashEntry_entered (c : Cause) (s : State) : Entered .toFlash s (toFlashEntry c s) := .of_frame (toFlashEntry_move c s)

theorem startLiveness_page (s : State) : (startLiveness s).page = { s.page with liveness := 0 } := rfl

/-- Entry to ALL_STOP starts the liveness timer at 0 (R51). -/
theorem allStopEntry_leaves (s : State) : (allStopEntry s).mode.normalPending = s.mode.normalPending ∧
    (allStopEntry s).page = { s.page with liveness := 0 } ∧ (allStopEntry s).store = s.store ∧ (allStopEntry s).bus = s.bus := by
  have h : Entered .allStop s (changeMode .allStop .software (forGroups allStopOrder) s) := .of_frame (allStopChange_move s)
  rw [allStopEntry]
  generalize changeMode .allStop .software (forGroups allStopOrder) s = t at h
  exact ⟨h.normalPending, by rw [startLiveness_page, h.page]; rfl, h.store, h.bus⟩

/-- The end of START_FLASH with normal-pending acted on (R48, R51). -/
theorem startFlashEnd_allStop {s : State} (h : s.mode.normalPending = true ∧ s.store.nv.valid = true ∧ s.store.busy = false) :
    ModeChange s (startFlashEnd s) .allStop .software ∧ (startFlashEnd s).mode.normalPending = false ∧
    (startFlashEnd s).page = { s.page with liveness := 0 } ∧ (startFlashEnd s).store = s.store ∧ (startFlashEnd s).bus = s.bus ∧
    ∀ g, s.configured g = true → (startFlashEnd s).group g = atAllStop s g := by
  rw [startFlashEnd, if_pos h]
  obtain ⟨h1, h2, h3, h4⟩ := allStopEntry_leaves (setNormalPending false s)
  exact ⟨allStopEntry_change (.withAside { s.aside with normalPending := false } s), h1, h2, h3, h4, fun g hg =>
    allStopEntry_atAllStop (s := setNormalPending false s) hg⟩

/-- The end of START_FLASH otherwise (R48, R58). -/
theorem startFlashEnd_flash {s : State} (h : ¬(s.mode.normalPending = true ∧ s.store.nv.valid = true ∧ s.store.busy = false)) :
    ModeChange s (startFlashEnd s) .flash .reset ∧ Entered .flash s (startFlashEnd s) ∧ (startFlashEnd s).groups = s.groups := by
  rw [startFlashEnd, if_neg h]
  exact ⟨resetFlash_change (.refl s), .of_frame (changeMode_move .flash .reset (orders := id) .refl s), rfl⟩

/-- Settles O15: the expiry is the end of the start-flash timer, by either entry. -/
theorem startFlashExpiryChoosesTheMode : Obligations.StartFlashExpiryChoosesTheMode := by
  unfold Obligations.StartFlashExpiryChoosesTheMode
  intro s hp hh hr hm hl
  obtain ⟨hruns, hpart⟩ := modeTimerPart_runs hp hh hr
  have ha : advanceModeTimer { s with parts := { s.parts with modeTimer := false } } =
      startFlashEnd { s with parts := { s.parts with modeTimer := false } } := by
    unfold advanceModeTimer
    simp only [hm]
    exact if_pos hl
  have hexec : exec .startFlashExpiry s = .next (startFlashEnd { s with parts := { s.parts with modeTimer := false } }) := by
    show Host.Outcome.next (if _ then modeTimerPart s else s) = _
    rw [if_pos ⟨hruns, hm, hl⟩, hpart, ha]
  refine ⟨fun hn hv hb => ⟨_, hexec, startFlashEnd_allStop ⟨hn, hv, hb⟩⟩, fun hn => ⟨_, hexec, ?_⟩⟩
  obtain ⟨h1, h2, h3⟩ := startFlashEnd_flash (s := { s with parts := { s.parts with modeTimer := false } })
    (by rintro ⟨k1, k2, k3⟩; rcases hn with hn | hn | hn <;> simp_all)
  exact ⟨h1, h2.normalPending, h2.page, h2.store, h2.bus, h3⟩

/-- Entry to NORMAL moves no group that is in neither PREPARE nor GO (R52, R62). -/
theorem normalEntry_groups {s : State} (h : ∀ g, s.configured g = true → (s.group g).state.active = false) :
    (normalEntry s).groups = s.groups := by
  refine Vector.ext fun i hi => ?_
  have hs := holdSweep_sweep (modeStart .normal s.mode.cause s)
  show (normalEntry s).group ⟨i, hi⟩ = s.group ⟨i, hi⟩
  rcases hc : s.configured ⟨i, hi⟩ with _ | _
  · exact hs.unconfigured hc
  · refine (hs.group hc).trans ?_
    exact congrArg Effect.group (holdEffect_stay (s := modeStart .normal s.mode.cause s) (.inr (.inr (h _ hc))))

/-- Settles O16: the expiries are the entries to NORMAL and to FLASH. -/
theorem allStopAndFlashEntryTimersExpire : Obligations.AllStopAndFlashEntryTimersExpire := by
  unfold Obligations.AllStopAndFlashEntryTimersExpire
  intro s hp hh hr
  obtain ⟨hruns, hpart⟩ := modeTimerPart_runs hp hh hr
  refine ⟨fun hm hl hg => ⟨normalEntry { s with parts := { s.parts with modeTimer := false } }, ?_, normalEntry_change (.refl _), ?_⟩,
    fun hm hl => ⟨flashEntry s.mode.cause { s with parts := { s.parts with modeTimer := false } }, ?_, flashEntry_change _ (.refl _), ?_⟩⟩
  · show Host.Outcome.next (if _ then modeTimerPart s else s) = _
    rw [if_pos ⟨hruns, hm, hl⟩, hpart]
    unfold advanceModeTimer
    simp only [hm]
    exact congrArg Host.Outcome.next (if_pos hl)
  · have h := normalEntry_entered { s with parts := { s.parts with modeTimer := false } }
    exact ⟨h.normalPending, h.page, h.store, h.bus, normalEntry_groups hg⟩
  · show Host.Outcome.next (if _ then modeTimerPart s else s) = _
    rw [if_pos ⟨hruns, hm, hl⟩, hpart]
    unfold advanceModeTimer
    simp only [hm]
    exact congrArg Host.Outcome.next (if_pos hl)
  · have h := flashEntry_entered s.mode.cause { s with parts := { s.parts with modeTimer := false } }
    exact ⟨h.normalPending, h.page, h.store, h.bus, fun g hg => flashEntry_group _ hg⟩

/-- The liveness timer at L (R54, R56). -/
theorem advanceLiveness_expires {s : State} (h : s.active.timing.liveness.toNat ≤ s.page.liveness + 1) :
    ModeChange s (advanceLiveness s) .toFlash .liveness ∧ (advanceLiveness s).mode.normalPending = s.mode.normalPending ∧
    (advanceLiveness s).page = { s.page with liveness := 0 } ∧ (advanceLiveness s).bus = s.bus ∧
    (advanceLiveness s).store =
      { s.store with nv := { s.store.nv with livenessLosses := satAdd s.store.nv.livenessLosses Config.counterLimit } } ∧
    ∀ g, s.configured g = true → (advanceLiveness s).group g = atToFlash s g := by
  have he : advanceLiveness s =
      toFlashEntry .liveness (s.withAside { s.aside with livenessLosses := satAdd s.store.nv.livenessLosses Config.counterLimit }) :=
    if_pos h
  rw [he]
  have k := toFlashEntry_entered .liveness
    (s.withAside { s.aside with livenessLosses := satAdd s.store.nv.livenessLosses Config.counterLimit })
  exact ⟨toFlashEntry_change _ (.withAside _ _), k.normalPending, k.page, k.bus, k.store, fun g hg => toFlashEntry_group _ hg⟩

/-- Settles O17: the expiry is the TO_FLASH entry with the loss counted. -/
theorem livenessExpiryGoesToFlash : Obligations.LivenessExpiryGoesToFlash := by
  unfold Obligations.LivenessExpiryGoesToFlash
  intro s hp hh hm hl
  obtain ⟨hruns, hpart⟩ := livenessPart_runs hp hh (by rcases hm with hm | hm <;> rw [hm] <;> rfl)
  refine ⟨_, ?_, advanceLiveness_expires (s := { s with parts := { s.parts with liveness := false } }) hl⟩
  show Host.Outcome.next (if _ then livenessPart s else s) = _
  rw [if_pos ⟨hruns, hl⟩, hpart]

end Sys2Proof.Machine

/-! PROOFS. Mode-word writes (R49, R50, R51, R56, R60, R91). -/

namespace Sys2Proof.Machine

open Sys2Proof

/-- The frame of a change of mode leaves what is set aside to the command. -/
theorem ModeChange.withAside {s t : State} {m : Mode} {c : Cause} (h : ModeChange s t m c) (a : Aside) :
    ModeChange s (t.withAside a) m c :=
  ⟨h.mode, h.cause, h.timers, h.filters, h.requests, h.unconfigured, h.resets, h.clock, h.arbiter, h.tap, h.link, h.latches, h.lamps,
    h.detectors, h.pending, h.record, h.groupRecords, h.requestRecords, h.running, h.heldModeTimer, h.heldLiveness, h.parts, h.heldBack,
    h.heldAges⟩

theorem Queue.atAccess_lengthened (q : Queue) : Lengthened q q.atAccess := by
  constructor <;> simp [Queue.groupStates, Queue.requestRecords, Queue.contents]

/-- The state in which the mode controller is offered a mode word: the access noted, the value forwarded (R85, R91). -/
def offered (v : Word) (s : State) : State := forwardWord 8 v (beginAccess s)

theorem offered_eq (v : Word) (s : State) : offered v s =
    { s.withAside { s.aside with
        word8 := ⟨v, true, false⟩, bus := ⟨none, some ⟨true, s.guardedAddress 0 8, ⟨true, true⟩, v⟩⟩ } with
      queue := s.queue.atAccess } := rfl

theorem offered_begun (v : Word) (s : State) : Begun s (offered v s) := ⟨_, _, offered_eq v s, fun _ => s.queue.atAccess_lengthened⟩

/-- A mode-word command is a write to word 8 of the request page. -/
theorem exec_modeWordWrite {c : Instr} {w : BusWrite} {s : State} (h : modeWordWriteOf c = some w)
    (ht : Taken s (requiredLevel s.tap.levelMap .request) w) : exec c s = .next (modeWordWrite w (beginAccess s)) := by
  have he : exec c s = .next (busWrite 0 8 w s) := by
    cases c <;> simp only [modeWordWriteOf, Option.some.injEq, reduceCtorEq] at h
    all_goals subst h; rfl
  rw [he, busWrite_request ht.1 (by omega), requestWrite_taken (s := beginAccess s) ht, if_neg (by omega)]

/-- A mode word whose value and mode pass (R49, R91, R97). -/
theorem exec_modeWord_accepted {c : Instr} {w : BusWrite} {s : State} {v : Word} (h : modeWordWriteOf c = some w)
    (ht : Taken s (requiredLevel s.tap.levelMap .request) w) (hv : mergeBytes s.page.word8.value w.data w.enables = v)
    (h2 : ¬2 < v.toNat) (hm : modeRefusal v.toNat s = none) :
    exec c s = .next (requestAccepted (modeAct v.toNat (offered v s))) := by
  have hm' : modeRefusal v.toNat (beginAccess s) = none := hm
  have hv' : mergeBytes (beginAccess s).page.word8.value w.data w.enables = v := hv
  rw [exec_modeWordWrite h ht, modeWordWrite]
  simp only [hv']
  rw [if_neg h2, hm']; rfl

theorem supervised_eq (m : Mode) : m.supervised = decide (m = .allStop ∨ m = .normal) := by simp [Mode.supervised]

/-- An accepted mode word that changes no mode leaves the page and the bus as every accepted one does (R85, R97, R98). -/
theorem requestAccepted_offered (v : Word) (s : State) : requestAccepted (offered v s) = afterModeWord s v := by
  simp [requestAccepted, offered, forwardWord, RequestPage.setMirror, beginAccess, afterModeWord, supervised_eq, bothBytes]
  rfl

theorem requestAccepted_setNormalPending (b : Bool) (v : Word) (s : State) : requestAccepted (setNormalPending b (offered v s)) =
    { afterModeWord s v with mode := { s.mode with normalPending := b } } := by
  rw [← requestAccepted_offered]; rfl

theorem requestAccepted_group (s : State) (g : GroupNo) : (requestAccepted s).group g = s.group g := rfl

/-- What an accepted mode word leaves that has changed the mode. -/
structure Changed (m : Mode) (n : Bool) (v : Word) (s t : State) : Prop where
  change : ModeChange s t m .software
  normalPending : t.mode.normalPending = n
  page : t.page = { (afterModeWord s v).page with liveness := 0 }
  bus : t.bus = (afterModeWord s v).bus
  store : t.store = s.store

/-- A mode word that has changed the mode is accepted (R97, R98). -/
theorem Changed.of_entry {m : Mode} {n : Bool} {v : Word} {s t : State} (h : ModeChange s t m .software) (hn : t.mode.normalPending = n) {l r : Nat}
    (hp : t.page = { (offered v s).page with liveness := l, refusals := r }) (hl : m.supervised = false → l = 0)
    (hb : t.bus = (offered v s).bus) (hs : t.store = s.store) : Changed m n v s (requestAccepted t) where
  change := h.withAside { t.aside with refusals := 0, liveness := if t.mode.mode.supervised then 0 else t.page.liveness }
  normalPending := hn
  page := by
    have hlive : (if t.mode.mode.supervised then 0 else t.page.liveness) = 0 := by
      rw [h.mode, hp]
      rcases hm : m.supervised with _ | _
      · exact hl hm
      · rfl
    show ({ t.page with refusals := 0, liveness := if t.mode.mode.supervised then 0 else t.page.liveness } : RequestPage) = _
    rw [hlive, hp]; rfl
  bus := hb
  store := hs

theorem toFlashEntry_changed (v : Word) (s : State) : Changed .toFlash s.mode.normalPending v s (requestAccepted (toFlashEntry .software (offered v s))) := by
  have h := toFlashEntry_entered .software (offered v s)
  exact .of_entry (toFlashEntry_change _ (offered_begun v s)) h.normalPending h.page (fun _ => rfl) h.bus h.store

theorem flashEntry_changed (v : Word) (s : State) : Changed .flash s.mode.normalPending v s (requestAccepted (flashEntry .software (offered v s))) := by
  have h := flashEntry_entered .software (offered v s)
  exact .of_entry (flashEntry_change _ (offered_begun v s)) h.normalPending h.page (fun _ => rfl) h.bus h.store

theorem darkEntry_changed (v : Word) (s : State) : Changed .dark false v s (requestAccepted (darkEntry (offered v s))) := by
  have h := darkEntry_move (offered v s)
  have hn : (darkEntry (offered v s)).mode.normalPending = false := congrArg ModeControl.normalPending h.mode
  exact .of_entry (darkEntry_change (offered_begun v s)) hn h.page (fun _ => rfl) h.bus h.store

theorem allStopEntry_changed (v : Word) (s : State) : Changed .allStop s.mode.normalPending v s (requestAccepted (allStopEntry (offered v s))) := by
  obtain ⟨hn, hp, hs, hb⟩ := allStopEntry_leaves (offered v s)
  exact .of_entry (allStopEntry_change (offered_begun v s)) hn hp (by simp [Mode.supervised]) hb hs

/-- What the mode controller does with FLASH (R49, R50, R56, R60). -/
theorem flashWord (s : State) :
    modeRefusal 0 s = none ∧
    (s.mode.mode = .startFlash ∨ s.mode.mode = .flash → modeAct 0 s = setNormalPending false s) ∧
    (s.mode.mode = .toFlash ∨ s.mode.mode = .faultFlash → modeAct 0 s = s) ∧
    (s.mode.mode = .allStop ∨ s.mode.mode = .normal → modeAct 0 s = toFlashEntry .software s) ∧
    (s.mode.mode = .dark → modeAct 0 s = flashEntry .software s) := by
  rcases hm : s.mode.mode <;> simp [modeRefusal, modeAct, hm]

/-- What the mode controller does with NORMAL, where it does not refuse it (R49, R50). -/
theorem normalWord (s : State) :
    (s.store.nv.valid = true → s.mode.mode = .startFlash ∨ (s.mode.mode = .flash ∧ s.store.busy = true) →
      modeRefusal 1 s = none ∧ modeAct 1 s = setNormalPending true s) ∧
    (s.mode.mode = .allStop ∨ s.mode.mode = .normal ∨ s.mode.mode = .faultFlash → modeRefusal 1 s = none ∧ modeAct 1 s = s) ∧
    (s.store.nv.valid = true → s.mode.mode = .flash → s.store.busy = false → modeRefusal 1 s = none ∧ modeAct 1 s = allStopEntry s) := by
  rcases hm : s.mode.mode <;> simp +contextual [modeRefusal, modeAct, hm]

/-- What the mode controller does with DARK, where it does not refuse it (R49, R60). -/
theorem darkWord (s : State) :
    (s.mode.mode = .toFlash ∨ s.mode.mode = .dark ∨ s.mode.mode = .faultFlash → modeRefusal 2 s = none ∧ modeAct 2 s = s) ∧
    (s.mode.mode = .flash → s.mode.switch.level = true → modeRefusal 2 s = none ∧ modeAct 2 s = darkEntry s) := by
  rcases hm : s.mode.mode <;> simp +contextual [modeRefusal, modeAct, hm, State.switchClosed]

/-- Settles O21: each accepted value is the mode controller's act on the state in which it is offered. -/
theorem acceptedModeWordsActByMode : Obligations.AcceptedModeWordsActByMode := by
  unfold Obligations.AcceptedModeWordsActByMode
  intro s c w hc ht v a
  have accepted : ∀ n u, v = n → ¬2 < n.toNat → modeRefusal n.toNat s = none ∧ modeAct n.toNat (offered n s) = u →
      exec c s = .next (requestAccepted u) := fun n u hv h2 h => h.2 ▸ exec_modeWord_accepted hc ht hv h2 h.1
  refine ⟨fun hv => ?_, fun hv => ?_, fun hv => ?_⟩ <;> have ha : a = afterModeWord s v := rfl <;> rw [hv] at ha <;> rw [ha]
  · obtain ⟨hr, h1, h2, h3, h4⟩ := flashWord (offered 0 s)
    have acc := fun u (h : modeAct 0 (offered 0 s) = u) => accepted 0 u hv (by simp) ⟨hr, h⟩
    refine ⟨fun hm => ?_, fun hm => ?_, fun hm => ⟨_, acc _ (h3 hm), ?_⟩, fun hm => ⟨_, acc _ (h4 hm), ?_⟩⟩
    · rw [acc _ (h1 hm), requestAccepted_setNormalPending]
    · rw [acc _ (h2 hm), requestAccepted_offered]
    · have k := toFlashEntry_changed 0 s
      exact ⟨k.change, k.normalPending, k.page, k.bus, k.store, fun g hg => (requestAccepted_group ..).trans (toFlashEntry_group (s := offered 0 s) _ hg)⟩
    · have k := flashEntry_changed 0 s
      exact ⟨k.change, k.normalPending, k.page, k.bus, k.store, fun g hg => (requestAccepted_group ..).trans (flashEntry_group (s := offered 0 s) _ hg)⟩
  · obtain ⟨h1, h2, h3⟩ := normalWord (offered 1 s)
    have acc := fun u => accepted 1 u hv (by simp)
    refine ⟨fun hs hm => ?_, fun hm => ?_, fun hs hm hb => ⟨_, acc _ (h3 hs hm hb), ?_⟩⟩
    · rw [acc _ (h1 hs hm), requestAccepted_setNormalPending]
    · rw [acc _ (h2 hm), requestAccepted_offered]
    · have k := allStopEntry_changed 1 s
      exact ⟨k.change, k.normalPending, k.page, k.bus, k.store, fun g hg => (requestAccepted_group ..).trans (allStopEntry_atAllStop (s := offered 1 s) hg)⟩
  · obtain ⟨h1, h2⟩ := darkWord (offered 2 s)
    have acc := fun u => accepted 2 u hv (by simp)
    refine ⟨fun hm => ?_, fun hm hs => ⟨_, acc _ (h2 hm hs), ?_⟩⟩
    · rw [acc _ (h1 hm), requestAccepted_offered]
    · have k := darkEntry_changed 2 s
      exact ⟨k.change, k.normalPending, k.page, k.bus, k.store, fun g hg => (requestAccepted_group ..).trans (darkEntry_group (s := offered 2 s) hg)⟩

end Sys2Proof.Machine

/-! PROOFS. The filtered edges of the hold lines and of the switch (R59 to R62). -/

namespace Sys2Proof.Machine

open Sys2Proof

/-! ### Hold lines -/

theorem holdSweep_stopLaw (s : State) : StopLaw s (holdSweep s) :=
  forGroups_stopLaw holdRule_moves fun _ s' _ _ _ => holdRule_stopLaw s'

theorem holdSweep_groupMove (s : State) : GroupMove s (holdSweep s) :=
  (holdSweep_sweep s).groupMove (fun g _ => holdEffect_regular s g _) (holdSweep_stopLaw s)

theorem holdEffect_length (s : State) (g : GroupNo) (x : Group) : (holdEffect s g x).records.length ≤ 1 := by
  unfold holdEffect
  split
  · split <;> simp [Effect.enter, Effect.stay]
  · simp [Effect.stay]

/-- What the hold rule leaves of a group's record (R62). -/
theorem holdEffect_group {s : State} (g : GroupNo) (x : Group) (ha : s.holdsAct = true) : (holdEffect s g x).group = underHold s g x := by
  unfold holdEffect underHold
  rw [ha]
  rcases s.heldByLine g with _ | _
  · rfl
  · obtain ⟨_ | _ | _ | _ | _ | _, _, _, _, _, _, _, _⟩ := x <;> rfl

/-- The HOLD record of an edge. -/
def holdRecord (line : Fin 2) (level : Bool) (s : State) : Said :=
  (.hold, lowWord s.clock, BitVec.ofNat 8 line.val, bitWord level 0)

/-- The state in which an edge of a hold line reaches the groups: the HOLD record submitted (R61). -/
def holdStart (line : Fin 2) (level : Bool) (s : State) : State := submit .hold (BitVec.ofNat 8 line.val) (bitWord level 0) s

theorem holdEdge_eq (line : Fin 2) (level : Bool) (s : State) :
    holdEdge line level s = if level then holdSweep (holdStart line level s) else holdStart line level s := rfl

/-- The submissions of an edge: the HOLD record, and where it asserts the line the records of the hold rule. -/
theorem holdEdge_queue (line : Fin 2) (level : Bool) (s : State) : ∃ l : List Said, l.length ≤ 32 ∧
    (holdEdge line level s).queue = s.queue.submits (holdRecord line level s :: l) := by
  rw [holdEdge_eq]
  rcases level
  · exact ⟨[], by simp, rfl⟩
  · refine ⟨_, sweepRecords_length (n := 1) fun g _ => holdEffect_length _ g _, (holdSweep_sweep (holdStart line true s)).queue⟩

/-- A submission of another kind leaves the GROUP_STATE records. -/
theorem holdStart_groupStates (line : Fin 2) (level : Bool) {s : State} (h : s.queue.held.length ≤ 64) :
    (holdStart line level s).queue.groupStates = s.queue.groupStates := by
  have := Queue.submits_groupStates [holdRecord line level s] (q := s.queue) (by simp; omega)
  rw [show (holdStart line level s).queue = s.queue.submits [holdRecord line level s] from rfl, this]
  simp [holdRecord]

/-- An edge of a hold line is a move of groups (R61, R62). -/
theorem holdEdge_groupMove (line : Fin 2) (level : Bool) (s : State) : GroupMove s (holdEdge line level s) := by
  have h : GroupMove (holdStart line level s) (holdEdge line level s) := by
    rw [holdEdge_eq]
    split
    · exact holdSweep_groupMove _
    · exact .refl _
  refine ⟨⟨h.powerOnHeld, h.externalHeld, h.clock, h.arbiter, h.page, h.tap, h.link, h.store, h.latches, h.bus, h.pending, h.mode, h.lamps,
    h.detectors, h.parts⟩, h.timerStarts, h.timerStands, h.heldBack, fun hq => ?_, h.heldAges⟩
  show _ = s.queue.groupStates ++ moveRecords (holdStart line level s) _
  rw [← holdStart_groupStates line level hq, holdEdge_eq]
  split
  · refine (holdSweep_sweep _).groupStates (fun g _ => (holdEffect_regular _ g _).states) ?_
    have h1 := sweepRecords_length (n := 1) (s := holdStart line level s)
      (eff := fun g => holdEffect (holdStart line level s) g ((holdStart line level s).group g)) fun g _ => holdEffect_length _ g _
    have h2 := Queue.submits_length [holdRecord line level s] (q := s.queue) (by simp; omega)
    have h3 : (holdStart line level s).queue.held.length = s.queue.held.length + 1 := h2
    omega
  · simp [moveRecords_eq]

/-- The state in which a hold line's edge takes effect: its filtered state changed, its part of the event taken (R61). -/
def holdTurned (line : Fin 2) (level : Bool) (s : State) : State :=
  { s with
    mode := if line = 0 then { s.mode with h0 := ⟨level, false⟩ } else { s.mode with h1 := ⟨level, false⟩ }
    parts := if line = 0 then { s.parts with hold0 := false } else { s.parts with hold1 := false } }

/-- HOLD at the second sample of a new level (R61). -/
theorem exec_hold_edge {s : State} {line : Fin 2} {level : Bool} (hd : (if line = 0 then s.parts.hold0 else s.parts.hold1) = true)
    (hf : (if line = 0 then s.mode.h0 else s.mode.h1) = ⟨!level, true⟩) :
    exec (.hold line level) s = .next (holdEdge line level (holdTurned line level s)) := by
  have hsample : (⟨!level, true⟩ : Filter).sample level = ⟨level, false⟩ := by cases level <;> rfl
  have hfilter : holdFilter (holdTaken line s) line = ⟨!level, true⟩ := by
    rw [← hf]; unfold holdFilter holdTaken; split <;> rfl
  have hpart : holdPart line level s = holdEdge line level (setHoldFilter line ⟨level, false⟩ (holdTaken line s)) := by
    have hdue : holdDue s line = true := hd
    rw [holdPart, if_pos hdue, sampleHold, hfilter, hsample, if_neg (by simp)]
  have hstart : setHoldFilter line ⟨level, false⟩ (holdTaken line s) = holdTurned line level s := by
    unfold setHoldFilter holdTaken holdTurned; split <;> rfl
  have hcond : holdDue s line = true ∧ (holdFilter s line).differed = true ∧ (holdFilter s line).level ≠ level := by
    have h : holdFilter s line = ⟨!level, true⟩ := hf
    exact ⟨hd, by rw [h], by rw [h]; simp⟩
  show Host.Outcome.next (if _ then holdPart line level s else s) = _
  rw [if_pos hcond, hpart, hstart]

/-- A group is held after the edge that asserts a line exactly where that line or one asserted before masks it (R30). -/
theorem heldByLine_turned {s : State} {line : Fin 2} (hf : (if line = 0 then s.mode.h0 else s.mode.h1) = ⟨false, true⟩) (g : GroupNo) :
    (holdTurned line true s).heldByLine g = true ↔ (line = 0 ∧ (s.active.holds.get 0).getLsbD g.val = true) ∨
      (line = 1 ∧ (s.active.holds.get 1).getLsbD g.val = true) ∨ s.heldByLine g = true := by
  have h01 : line = 0 ∨ line = 1 := by omega
  rcases h01 with rfl | rfl
  · have h0 : s.mode.h0 = ⟨false, true⟩ := hf
    show (true && _ || s.mode.h1.level && _) = true ↔ _
    unfold State.heldByLine
    rw [h0]; simp; rfl
  · have h1 : s.mode.h1 = ⟨false, true⟩ := hf
    show (s.mode.h0.level && _ || true && _) = true ↔ _
    unfold State.heldByLine
    rw [h1]; simp [or_comm]; rfl

/-! ### The switch -/

theorem exec_switch_edge {s : State} {closed : Bool} (hd : s.parts.switch = true) (hf : s.mode.switch = ⟨!closed, true⟩) :
    exec (.commissioningSwitchChange closed) s = .next (if closed = false ∧ s.mode.mode = .dark then
      flashEntry .switch { s with mode := { s.mode with switch := ⟨closed, false⟩ }, parts := { s.parts with switch := false } }
      else { s with mode := { s.mode with switch := ⟨closed, false⟩ }, parts := { s.parts with switch := false } }) := by
  have hsample : s.mode.switch.sample closed = ⟨closed, false⟩ := by rw [hf]; cases closed <;> rfl
  show Host.Outcome.next (if _ then switchPart closed s else s) = _
  rw [if_pos ⟨hd, by rw [hf], by rw [hf]; simp⟩, switchPart, if_pos hd, sampleSwitch]
  dsimp only
  rw [hsample, hf]
  cases closed <;> simp

/-- What an edge of a hold line makes of each group (R30, R62). -/
theorem holdEdge_group (line : Fin 2) (level : Bool) (s : State) (g : GroupNo) :
    (level = false ∨ (s.mode.mode ≠ .normal ∧ s.mode.mode ≠ .toFlash) ∨ s.configured g = false →
      (holdEdge line level s).group g = s.group g) ∧
    (level = true → s.mode.mode = .normal ∨ s.mode.mode = .toFlash → s.configured g = true →
      (holdEdge line level s).group g = underHold s g (s.group g)) := by
  rw [holdEdge_eq]
  refine ⟨fun h => ?_, fun hl hm hc => ?_⟩
  · rcases level
    · rfl
    have hs := holdSweep_sweep (holdStart line true s)
    rcases hc : s.configured g with _ | _
    · exact hs.unconfigured hc
    refine (hs.group hc).trans (congrArg Effect.group (holdEffect_stay (s := holdStart line true s) (.inr (.inl ?_))))
    obtain ⟨h1, h2⟩ := (h.resolve_left (by simp)).resolve_right (by simp [hc])
    show (decide (s.mode.mode = .normal) || decide (s.mode.mode = .toFlash)) = false
    simp [h1, h2]
  · subst hl
    refine ((holdSweep_sweep (holdStart line true s)).group hc).trans (holdEffect_group (s := holdStart line true s) g _ ?_)
    show (decide (s.mode.mode = .normal) || decide (s.mode.mode = .toFlash)) = true
    rcases hm with hm | hm <;> simp [hm]

/-- Where the queue has room the HOLD record of an edge is held (R61). -/
theorem holdEdge_record (line : Fin 2) (level : Bool) {s : State} (hq : s.queue.held.length ≤ 64) :
    (.hold, lowWord s.clock, subjectOf line.val, if level then 1 else 0) ∈ (holdEdge line level s).queue.contents := by
  obtain ⟨l, hl, he⟩ := holdEdge_queue line level s
  rw [he]
  refine Queue.mem_submits _ (by rw [List.length_cons]; omega) ?_
  have hb : bitWord level 0 = if level then 1 else 0 := by cases level <;> rfl
  rw [← hb]; exact List.mem_cons_self

/-- What entry to FLASH leaves (R57, R58). -/
theorem flashEntry_leaves (c : Cause) (s : State) : ModeChange s (flashEntry c s) .flash c ∧
    (flashEntry c s).mode.normalPending = s.mode.normalPending ∧
    (flashEntry c s).page = { s.page with liveness := 0, refusals := 0 } ∧ (flashEntry c s).store = s.store ∧
    (flashEntry c s).bus = s.bus ∧ ∀ g, s.configured g = true → (flashEntry c s).group g = (s.group g).ordered .flashing := by
  have h := flashEntry_entered c s
  exact ⟨flashEntry_change c (.refl s), h.normalPending, h.page, h.store, h.bus, fun g hg => flashEntry_group c hg⟩

/-- Settles O18: an edge of a hold line is the HOLD record and, where it asserts the line, the hold rule's sweep; an edge of the switch is the
entry to FLASH in DARK. -/
theorem filteredEdgesOfHoldLinesAndSwitch : Obligations.FilteredEdgesOfHoldLinesAndSwitch := by
  unfold Obligations.FilteredEdgesOfHoldLinesAndSwitch
  refine ⟨fun s line level hd hf => ⟨_, exec_hold_edge hd hf, ?_⟩, fun s closed hd hf => ⟨fun h => ?_, fun hc hm => ?_⟩⟩
  · have hmove := holdEdge_groupMove line level (holdTurned line level s)
    have hrecord := holdEdge_record line level (s := holdTurned line level s)
    have hgroup := holdEdge_group line level (holdTurned line level s)
    generalize holdEdge line level (holdTurned line level s) = t at hmove hrecord hgroup
    have hmode : (holdTurned line level s).mode.mode = s.mode.mode := by unfold holdTurned; dsimp only; split <;> rfl
    refine ⟨?_, hmove.modeMode.trans hmode, hmove.page, hmove.store, hmove.link, hmove, fun hq => (records_iff ..).2 (hrecord hq),
      fun g h => ?_, fun g hl hm hc => ?_⟩
    · rw [hmove.h0, hmove.h1]
      unfold holdTurned; split <;> rfl
    · exact (hgroup g).1 (by rw [hmode]; exact h)
    · rw [(hgroup g).2 hl (by rw [hmode]; exact hm) hc]
      subst hl
      exact if_congr (heldByLine_turned hf g) rfl rfl
  · rw [exec_switch_edge hd hf, if_neg (by rcases h with h | h <;> simp [h])]
  · subst hc
    rw [exec_switch_edge hd hf, if_pos ⟨rfl, hm⟩]
    have h := flashEntry_leaves .switch
      { s with mode := { s.mode with switch := ⟨false, false⟩ }, parts := { s.parts with switch := false } }
    generalize flashEntry .switch
      { s with mode := { s.mode with switch := ⟨false, false⟩ }, parts := { s.parts with switch := false } } = t at h
    exact ⟨t, rfl, h⟩

end Sys2Proof.Machine

/-! PROOFS. Where a submission stands among the records already held (R148). -/

namespace Sys2Proof.Machine

open Sys2Proof

theorem Queue.stores_fresh_le (rs : List Record) : ∀ q : Queue, (rs.foldl Queue.store q).fresh ≤ q.fresh + rs.length := by
  induction rs with
  | nil => intro q; simp
  | cons r rs ih =>
    intro q
    refine (ih (q.store r)).trans ?_
    rcases q.store_cases r with ⟨-, e⟩ | ⟨-, e⟩ <;> rw [e, List.length_cons] <;> dsimp only <;> omega

/-- A submission with room adds at most itself to the moment. -/
theorem Queue.submit_fresh_le {q : Queue} (h : q.held.length < 128) (k : EventKind) (stamp : Word) (x : Byte) (d : Word) :
    (q.submit k stamp x d).fresh ≤ q.fresh + 1 := by
  have h1 := q.place_le ⟨k, stamp, x, d, 0⟩
  have h2 := q.passes_le ⟨k, stamp, x, d, 0⟩
  have hm := q.moment_length
  rw [if_pos h] at hm
  show (q.partWay (q.place ⟨k, stamp, x, d, 0⟩) (·.store ⟨k, stamp, x, d, 0⟩)).fresh ≤ _
  generalize q.place ⟨k, stamp, x, d, 0⟩ = n at *
  rcases n with _ | n
  · exact Queue.stores_fresh_le [_] q
  · have hs := Queue.stores_fresh_le (⟨k, stamp, x, d, 0⟩ :: q.late (n + 1)) (q.rewind (n + 1))
    rw [Queue.rewind_fresh, List.length_cons, Queue.late, List.length_drop] at hs
    refine hs.trans ?_
    omega

/-- No submission of the moment can be taken before the records of `base`: they stand first, and were held before the moment. -/
structure Queue.StartsWith (base : List Said) (q : Queue) (rest : List Said) : Prop where
  contents : q.contents = base ++ rest
  fresh : base.length ≤ q.held.length - q.fresh

/-- A submission with room stands somewhere among the records after `base`, behind all that it must follow. -/
theorem Queue.StartsWith.submit {base rest : List Said} {q : Queue} (hq : q.StartsWith base rest) (h : q.held.length < 128)
    (k : EventKind) (stamp : Word) (x : Byte) (d : Word) : ∃ front back, rest = front ++ back ∧
      (q.submit k stamp x d).StartsWith base (front ++ (k, stamp, x, d) :: back) ∧
      ∀ c ∈ back, ∃ y : Record, y.content = c ∧ mustFollow ⟨k, stamp, x, d, 0⟩ y = false := by
  obtain ⟨n, hn, hlate, hc⟩ := Queue.submit_contents h k stamp x d
  have hb := hq.fresh
  have hp : base.length ≤ q.held.length - n := by omega
  have hf := Queue.submit_fresh_le h k stamp x d
  have hl := Queue.submit_length h k stamp x d
  refine ⟨rest.take (q.held.length - n - base.length), rest.drop (q.held.length - n - base.length), (List.take_append_drop ..).symm,
    ⟨?_, by omega⟩, fun c hcb => ?_⟩
  · rw [hc, hq.contents, List.take_append, List.take_of_length_le hp, List.drop_append, List.drop_eq_nil_of_le hp]
    simp
  · have hm : c ∈ q.contents.drop (q.held.length - n) := by
      rw [hq.contents, List.drop_append, List.drop_eq_nil_of_le hp]; exact hcb
    rw [Queue.contents, ← List.map_drop] at hm
    obtain ⟨y, hy, rfl⟩ := List.mem_map.1 hm
    exact ⟨y, rfl, hlate y hy⟩

/-- Submissions with room keep the order of the records held. -/
theorem Queue.StartsWith.submits (l : List Said) {base rest : List Said} {q : Queue} (hq : q.StartsWith base rest)
    (h : q.held.length + l.length ≤ 128) : ∃ rest', (q.submits l).StartsWith base rest' ∧ rest.Sublist rest' := by
  induction l generalizing q rest with
  | nil => exact ⟨rest, hq, .refl _⟩
  | cons c l ih =>
    rw [List.length_cons] at h
    have hl := Queue.submit_length (q := q) (by omega) c.1 c.2.1 c.2.2.1 c.2.2.2
    obtain ⟨front, back, rfl, hs, -⟩ := hq.submit (by omega) c.1 c.2.1 c.2.2.1 c.2.2.2
    obtain ⟨rest', hs', hsub⟩ := ih hs (by omega)
    exact ⟨rest', hs', ((List.sublist_cons_self _ _).append_left front).trans hsub⟩

/-- The REFUSED record of the refusal trigger stands before the MODE record of its TO_FLASH entry, whatever is submitted after them (R55,
R86). -/
theorem Queue.refused_before_mode {q : Queue} {refused mode : Said} (l : List Said) (h : q.held.length + (l.length + 2) ≤ 128)
    (hr : refused.1 = .refused) (hm : mode.1 = .mode) (hd : mode.2.2.2.toNat % 16 = modeCode .toFlash)
    (hc : mode.2.2.2.toNat / 256 = causeCode .refusals) :
    ∃ before between after, (q.submits (refused :: mode :: l)).contents = before ++ refused :: between ++ mode :: after ∧
      (q.fresh = 0 → q.contents <+: before) := by
  have start : q.StartsWith (if q.fresh = 0 then q.contents else []) (if q.fresh = 0 then [] else q.contents) := by
    split
    · rename_i h0
      exact ⟨(List.append_nil _).symm, by simp [Queue.contents, h0]⟩
    · exact ⟨rfl, Nat.zero_le _⟩
  generalize hbase : (if q.fresh = 0 then q.contents else []) = base at start
  obtain ⟨f1, b1, -, s1, -⟩ := start.submit (by omega) refused.1 refused.2.1 refused.2.2.1 refused.2.2.2
  have l1 := Queue.submit_length (q := q) (by omega) refused.1 refused.2.1 refused.2.2.1 refused.2.2.2
  obtain ⟨f2, b2, he, s2, hb⟩ := s1.submit (by omega) mode.1 mode.2.1 mode.2.2.1 mode.2.2.2
  have l2 := Queue.submit_length (q := q.submit refused.1 refused.2.1 refused.2.2.1 refused.2.2.2) (by omega)
    mode.1 mode.2.1 mode.2.2.1 mode.2.2.2
  have hf : refused ∈ f2 := by
    have : refused ∈ f2 ++ b2 := he ▸ List.mem_append_right _ List.mem_cons_self
    refine (List.mem_append.1 this).resolve_right fun hmem => ?_
    obtain ⟨y, hy, hfollow⟩ := hb refused hmem
    have hk : y.kind = .refused := (congrArg Prod.fst hy).trans hr
    simp [mustFollow, hm, hd, hc, hk] at hfollow
  obtain ⟨rest, s3, hsub⟩ := s2.submits l (by omega)
  have hpair : [refused, mode].Sublist rest :=
    ((List.singleton_sublist.2 hf).append (List.singleton_sublist.2 List.mem_cons_self)).trans hsub
  obtain ⟨r1, r2, rfl, hm1, hm2⟩ := List.cons_sublist_iff.1 hpair
  obtain ⟨x1, y1, rfl⟩ := List.append_of_mem hm1
  obtain ⟨x2, y2, rfl⟩ := List.append_of_mem (List.singleton_sublist.1 hm2)
  refine ⟨base ++ x1, y1 ++ x2, y2, ?_, fun h0 => ?_⟩
  · have := s3.contents
    rw [Queue.submits_cons, Queue.submits_cons, this]; simp
  · rw [← hbase, if_pos h0]; exact List.prefix_append _ _

end Sys2Proof.Machine

/-! PROOFS. The refusal limit (R55, R86, R92, R98). -/

namespace Sys2Proof.Machine

open Sys2Proof

/-! ### The records of TO_FLASH entry -/

/-- Every record of an effect is the group sequencer's. -/
def Effect.OfSequencer (e : Effect) : Prop := ∀ c ∈ e.records, c.1.block = .groupSequencer

theorem Effect.OfSequencer.stay (x : Group) : (Effect.stay x).OfSequencer := fun _ h => nomatch h

theorem Effect.OfSequencer.enter (s : State) (g : GroupNo) (x : Group) (st : GroupState) (e : Option Nat) (b : Bool) :
    (Effect.enter s g x st e b).OfSequencer := fun c h => by
  rw [List.mem_singleton.1 h]; rfl

theorem Effect.OfSequencer.andThen {e f : Effect} (h : e.OfSequencer) (k : f.OfSequencer) : (e.andThen f).OfSequencer := fun c hc =>
  (List.mem_append.1 hc).elim (h c) (k c)

theorem holdEffect_ofSequencer (s : State) (g : GroupNo) (x : Group) : (holdEffect s g x).OfSequencer := by
  unfold holdEffect
  split
  · split
    · exact .enter _ _ _ _ _ _
    · exact .enter _ _ _ _ _ _
    · exact .stay x
  · exact .stay x

theorem clearedEffect_ofSequencer (s : State) (g : GroupNo) (x : Group) : (clearedEffect s g x).OfSequencer := by
  unfold clearedEffect
  split
  · exact fun _ h => nomatch h
  · exact fun c h => by rw [List.mem_singleton.1 h]; rfl
  · split
    · exact .enter _ _ _ _ _ _
    · exact fun c h => by rw [List.mem_singleton.1 h]; rfl
  · exact .stay x

theorem toFlashEffect_ofSequencer (s : State) (g : GroupNo) (x : Group) : (toFlashEffect s g x).OfSequencer := by
  refine .andThen ?_ (holdEffect_ofSequencer _ _ _)
  unfold endEffect
  split
  · exact clearedEffect_ofSequencer _ _ _
  · exact .stay x

/-- A sweep of the sequencer's effects submits no record of another block. -/
theorem sweepRecords_block {s : State} {eff : GroupNo → Effect} (h : ∀ g, (eff g).OfSequencer) {b : Block} (hb : b ≠ .groupSequencer) :
    (sweepRecords s eff).filter (fun c => c.1.block = b) = [] := by
  rw [List.filter_eq_nil_iff]
  intro c hc
  obtain ⟨g, -, hg⟩ := List.mem_flatMap.1 hc
  split at hg
  · rw [h g c hg]; simpa using hb.symm
  · cases hg

/-! ### The refused write at the limit -/

/-- The state in which a write to the request page is refused: the access noted, and what it has left of word 8 and of the bus. -/
def writeBegun (w8 : MirrorWord) (b : BusPins) (s : State) : State :=
  { s with page := { s.page with word8 := w8 }, queue := s.queue.atAccess, bus := b }

/-- The REFUSED record of a request-page write (R77). -/
def refusedRecord (word : Nat) (reason : Reason) (l : Level) (s : State) : Said :=
  (.refused, lowWord s.clock, 0, refusedDetail reason l word)

/-- The state from which the refusal trigger enters TO_FLASH: the REFUSED record submitted, the refusal counted (R55, R86, R98). -/
def refusalCounted (w8 : MirrorWord) (b : BusPins) (word : Nat) (reason : Reason) (l : Level) (s : State) : State :=
  setRefusals (nextRefusals s) (submitRefused 0 word reason l (writeBegun w8 b s))

section

variable (w8 : MirrorWord) (b : BusPins) (word : Nat) (reason : Reason) (l : Level) (s : State)

theorem requestRefused_limit (h : limitReached s = true) : requestRefused word reason l (writeBegun w8 b s) =
    setRefusals 0 (toFlashEntry .refusals (refusalCounted w8 b word reason l s)) := by
  have hl : limitReached (submitRefused 0 word reason l (writeBegun w8 b s)) = true := h
  rw [requestRefused, countRefusal, if_pos hl]; rfl

theorem refusalCounted_queue : (refusalCounted w8 b word reason l s).queue =
    s.queue.atAccess.submits [refusedRecord word reason l s] := by
  have ha : areaOffset 0 word = word := by simp [areaOffset]
  show s.queue.atAccess.submit _ _ _ (refusedDetail reason l (areaOffset 0 word)) = _
  rw [ha]; rfl

theorem refusalCounted_begun : Begun s (refusalCounted w8 b word reason l s) := by
  refine ⟨{ s.aside with word8 := w8, bus := b, refusals := nextRefusals s }, (refusalCounted w8 b word reason l s).queue, rfl,
    fun hq => ?_⟩
  rw [refusalCounted_queue w8 b word reason l s]
  have h := s.queue.atAccess_lengthened
  have hroom : s.queue.atAccess.held.length + [refusedRecord word reason l s].length ≤ 128 := by
    rw [Queue.atAccess_held, List.length_singleton]; omega
  refine ⟨?_, ?_, ?_⟩
  · rw [Queue.submits_length _ hroom, Queue.atAccess_held]; simp
  · rw [Queue.submits_groupStates _ hroom, h.groupStates]; simp [refusedRecord]
  · rw [Queue.submits_requestRecords _ hroom, h.requestRecords]; simp [refusedRecord]

/-- The submissions of the refusal trigger, in their order. -/
theorem refusalEntry_queue : ∃ eff : GroupNo → Effect, (∀ g, (eff g).OfSequencer) ∧ (∀ g, (eff g).records.length ≤ 2) ∧
    (toFlashEntry .refusals (refusalCounted w8 b word reason l s)).queue = s.queue.atAccess.submits
      (refusedRecord word reason l s :: modeRecord .toFlash .refusals s :: sweepRecords s eff) := by
  let u := refusalCounted w8 b word reason l s
  refine ⟨fun g => toFlashEffect (modeStart .toFlash .refusals u) g (s.group g), fun g => toFlashEffect_ofSequencer _ _ _, fun g =>
    (toFlashEffect_regular (s := modeStart .toFlash .refusals u) g _ rfl).length, ?_⟩
  refine (toFlashOrders_sweep (modeStart .toFlash .refusals u)).queue.trans ?_
  show (u.queue.submits [modeRecord .toFlash .refusals s]).submits _ = _
  rw [refusalCounted_queue w8 b word reason l s, ← Queue.submits_append, ← Queue.submits_append]; rfl

end

/-- What the refusal trigger leaves (R55, R56, R86, R98). -/
structure LimitReached (word : Nat) (reason : Reason) (l : Level) (s t : State) : Prop where
  change : ModeChange s t .toFlash .refusals
  normalPending : t.mode.normalPending = s.mode.normalPending
  refusals : t.page.refusals = 0
  liveness : t.page.liveness = 0
  store : t.store = s.store
  group : ∀ g, s.configured g = true → t.group g = atToFlash s g
  order : s.queue.held.length ≤ 60 →
    t.queue.ofBlock .busTap = s.queue.ofBlock .busTap ++ [refusedRecord word reason l s] ∧
    t.queue.ofBlock .modeController = s.queue.ofBlock .modeController ++ [modeRecord .toFlash .refusals s] ∧
    ∃ before between after,
      t.queue.contents = before ++ refusedRecord word reason l s :: between ++ modeRecord .toFlash .refusals s :: after ∧
      (s.queue.atAccess.fresh = 0 → s.queue.contents <+: before)

/-- The records of the refusal trigger by block, and the REFUSED record before the MODE record (R86). -/
theorem refusalEntry_order {word : Nat} {reason : Reason} {l : Level} {s : State} {q : Queue} {eff : GroupNo → Effect}
    (hb : ∀ g, (eff g).OfSequencer) (hl : ∀ g, (eff g).records.length ≤ 2) (hq : s.queue.held.length ≤ 60)
    (he : q = s.queue.atAccess.submits (refusedRecord word reason l s :: modeRecord .toFlash .refusals s :: sweepRecords s eff)) :
    q.ofBlock .busTap = s.queue.ofBlock .busTap ++ [refusedRecord word reason l s] ∧
    q.ofBlock .modeController = s.queue.ofBlock .modeController ++ [modeRecord .toFlash .refusals s] ∧
    ∃ before between after,
      q.contents = before ++ refusedRecord word reason l s :: between ++ modeRecord .toFlash .refusals s :: after ∧
      (s.queue.atAccess.fresh = 0 → s.queue.contents <+: before) := by
  have hs := sweepRecords_length (s := s) fun g _ => hl g
  have hroom : s.queue.atAccess.held.length + ((sweepRecords s eff).length + 2) ≤ 128 := by rw [Queue.atAccess_held]; omega
  have hof : ∀ b, s.queue.atAccess.ofBlock b = s.queue.ofBlock b := fun b => by simp only [Queue.ofBlock, Queue.contents, Queue.atAccess_held]
  have hcontents : s.queue.atAccess.contents = s.queue.contents := by simp only [Queue.contents, Queue.atAccess_held]
  subst he
  refine ⟨?_, ?_, ?_⟩
  · rw [Queue.submits_ofBlock _ (by simpa using hroom), hof, List.filter_cons, List.filter_cons, sweepRecords_block hb (by simp)]; rfl
  · rw [Queue.submits_ofBlock _ (by simpa using hroom), hof, List.filter_cons, List.filter_cons, sweepRecords_block hb (by simp)]; rfl
  · rw [← hcontents]
    refine Queue.refused_before_mode _ hroom rfl rfl ?_ ?_
    · rcases hm : s.mode.mode <;> simp [modeRecord, hm] <;> rfl
    · rcases hm : s.mode.mode <;> simp [modeRecord, hm] <;> rfl

/-- The refusal that reaches the limit (R55). -/
theorem requestRefused_limitReached {w8 : MirrorWord} {b : BusPins} {word : Nat} {reason : Reason} {l : Level} {s t : State}
    (hl : limitReached s = true) (ht : t = requestRefused word reason l (writeBegun w8 b s)) :
    LimitReached word reason l s t ∧ t.page.word8 = w8 ∧ t.bus = b := by
  rw [requestRefused_limit w8 b word reason l s hl] at ht
  have hbegun := refusalCounted_begun w8 b word reason l s
  obtain ⟨eff, hb, hlen, hq⟩ := refusalEntry_queue w8 b word reason l s
  have hcounted : (refusalCounted w8 b word reason l s).page.word8 = w8 ∧ (refusalCounted w8 b word reason l s).bus = b ∧
    (refusalCounted w8 b word reason l s).store = s.store ∧
    (refusalCounted w8 b word reason l s).mode = s.mode := ⟨rfl, rfl, rfl, rfl⟩
  have hgroup : ∀ g, s.configured g = true → (toFlashEntry .refusals (refusalCounted w8 b word reason l s)).group g = atToFlash s g :=
    fun g hg => toFlashEntry_group (s := refusalCounted w8 b word reason l s) _ hg
  generalize refusalCounted w8 b word reason l s = u at *
  have he := toFlashEntry_entered .refusals u
  have hc := toFlashEntry_change .refusals hbegun
  obtain ⟨h8, hbus, hstore, hmode⟩ := hcounted
  generalize toFlashEntry .refusals u = v at *
  subst ht
  exact ⟨⟨hc.withAside { v.aside with refusals := 0 }, by rw [← hmode]; exact he.normalPending, rfl,
    congrArg RequestPage.liveness he.page, he.store.trans hstore, hgroup, fun hq60 => refusalEntry_order hb hlen hq60 hq⟩,
    (congrArg RequestPage.word8 he.page).trans h8, he.bus.trans hbus⟩

/-- The command acts where the write is refused and reaches the limit (R55). -/
theorem exec_refusalLimit {s : State} {word : Fin 9} {w : BusWrite} {reason : Reason} {w8 : MirrorWord} {b : BusPins}
    (hh : s.held = false) (hr : writeReachesLimit word.val w s = true)
    (hw : requestWrite word.val w (beginAccess s) = requestRefused word.val reason w.level (writeBegun w8 b s)) :
    exec (.refusalLimitReached word w) s = .next (requestRefused word.val reason w.level (writeBegun w8 b s)) := by
  show Host.Outcome.next (if writeReachesLimit word.val w s then busWrite 0 word.val w s else s) = _
  rw [if_pos hr, busWrite_request hh word.isLt, hw]

/-- DARK, and every value above 2, is refused in ALL_STOP and NORMAL (R49, R91). -/
theorem modeWordWrite_refused {s : State} {w : BusWrite} (hm : s.mode.mode = .allStop ∨ s.mode.mode = .normal)
    (h0 : mergeBytes s.page.word8.value w.data w.enables ≠ 0) (h1 : mergeBytes s.page.word8.value w.data w.enables ≠ 1) :
    (2 < (mergeBytes s.page.word8.value w.data w.enables).toNat ∨
      (modeRefusal (mergeBytes s.page.word8.value w.data w.enables).toNat s).isSome = true) ∧
    modeWordWrite w s = requestRefused 8 (if mergeBytes s.page.word8.value w.data w.enables = 2 then .mode else .value) w.level
      (forwardWord 8 s.page.word8.value s) := by
  unfold modeWordWrite
  dsimp only
  generalize mergeBytes s.page.word8.value w.data w.enables = v at *
  by_cases h2 : v = 2
  · have hr : modeRefusal 2 s = some .mode := by unfold modeRefusal; rcases hm with hm | hm <;> rw [hm] <;> rfl
    subst h2
    exact ⟨.inr (by rw [show (2 : Word).toNat = 2 from rfl, hr]; rfl), by rw [show (2 : Word).toNat = 2 from rfl, hr]; rfl⟩
  · have h : 2 < v.toNat := by bv_omega
    exact ⟨.inl h, by rw [if_pos h, if_neg h2]⟩

/-- Settles O20: the refusal that reaches the limit, by LEVEL and by the mode word. -/
theorem refusalLimitGoesToFlash : Obligations.RefusalLimitGoesToFlash := by
  unfold Obligations.RefusalLimitGoesToFlash
  intro s word w hh he hm h0 hlim v byLevel goes
  have hl : limitReached s = true := by
    have hs : s.mode.mode.supervised = true := by rw [supervised_eq]; simpa using hm
    simp only [limitReached, hs, Bool.true_and, Bool.and_eq_true, decide_eq_true_iff]
    exact ⟨h0, hlim⟩
  have hpass : levelPasses w.level (requiredLevel s.tap.levelMap .request) = !decide byLevel := by
    rw [levelPasses_eq, Bool.eq_iff_iff]; simp [byLevel]
  have result : ∀ {reason w8 b}, requestWrite word.val w (beginAccess s) = requestRefused word.val reason w.level (writeBegun w8 b s) →
      writeReachesLimit word.val w s = true → ∃ t, goes reason t ∧ t.page.word8 = w8 ∧ t.bus = b := fun {reason w8 b} hw hr => by
    have hx := exec_refusalLimit hh hr hw
    obtain ⟨k, k8, kb⟩ := requestRefused_limitReached (word := word.val) (reason := reason) (w8 := w8) (b := b) (l := w.level) hl rfl
    generalize requestRefused word.val reason w.level (writeBegun w8 b s) = t at hx k k8 kb
    exact ⟨t, ⟨hx, k.change, k.normalPending, k.refusals, k.liveness, k.store, k.group, k.order⟩, k8, kb⟩
  refine ⟨fun hb => result ?_ ?_, fun hb hw h0 h1 => ?_⟩
  · unfold requestWrite
    rw [if_neg (by simp [he]), if_pos]
    · rfl
    · exact hpass.trans (by simp [hb])
  · simp [writeReachesLimit, hh, he, hl, hpass, hb]
  · subst hw
    have k := modeWordWrite_refused (s := beginAccess s) hm h0 h1
    refine result ?_ ?_
    · have ht : Taken (beginAccess s) (requiredLevel s.tap.levelMap .request) w := ⟨hh, he, by simpa [byLevel] using hb⟩
      exact (requestWrite_taken ht).trans ((if_neg (by decide)).trans k.2)
    · have k1 := k.1
      simp only [writeReachesLimit, hh, he, hl, Bool.not_false, Bool.true_and, Bool.or_eq_true, Bool.and_eq_true, decide_eq_true_iff]
      exact .inr ⟨rfl, k1⟩

end Sys2Proof.Machine

/-! PROOFS. The changes of the configuration at the end of a commit (R4, R125, R145). -/

namespace Sys2Proof.Machine

open Sys2Proof

/-! ### The groups -/

/-- A group that ceases to be configured (R4). -/
def unconfigureEffect (s : State) (g : GroupNo) (x : Group) : Effect :=
  ⟨Group.unconfigured, if x.state = .unlit then [] else [groupRecord s g .unlit x.state], false, false, false, false⟩

/-- A group that becomes configured, before its stale request is handed to it (R4, R50). -/
def enlistEffect (s : State) (g : GroupNo) (x : Group) : Effect :=
  if s.mode.mode = .dark then .stay x else orderEffect .flashing s g x

/-- A group that becomes configured (R4, R89). -/
def configureEffect (s : State) (g : GroupNo) (x : Group) : Effect :=
  if s.goMask.getLsbD g.val then (enlistEffect s g x).andThen (setEffect (enlistEffect s g x).group) else enlistEffect s g x

/-- What the new group count does to a group (R4); `was` says which groups were configured before. -/
def countEffect (was : GroupNo → Bool) (s : State) (g : GroupNo) (x : Group) : Effect :=
  if was g then (if s.configured g then .stay x else unconfigureEffect s g x)
  else if s.configured g then configureEffect s g x else .stay x

section

variable {s t : State} {g : GroupNo} {x : Group} (h : GroupFrame s t) (hx : t.group g = x)
include h hx

theorem unconfigureGroup_turn : Turn g (unconfigureEffect s g x) t (unconfigureGroup g t) := by
  have h1 := setGroup_turn g Group.unconfigured t
  unfold unconfigureGroup unconfigureEffect
  rw [hx]
  dsimp only
  split
  · exact h1
  · have h2 := submit_turn g .groupState (BitVec.ofNat 8 g.val) (groupDetail .unlit x.state) (t.setGroup g Group.unconfigured)
    rw [h1.group] at h2
    have h3 := h1.andThen h2
    unfold groupRecord subjectOf
    rw [← h.clock]; exact h3

theorem configureGroup_turn : Turn g (configureEffect s g x) t (configureGroup g t) := by
  have h1 : Turn g (enlistEffect s g x) t (if t.mode.mode = .dark then t else orderGroup .flashing g t) := by
    unfold enlistEffect
    rw [h.modeMode]
    split
    · exact stay_turn hx
    · exact orderGroup_turn h hx .flashing
  unfold configureEffect configureGroup
  dsimp only
  rw [h.goMask]
  split
  · exact h1.andThen (requestSet_turn h1.group)
  · exact h1

end

theorem applyGroupCount_pass (was : GroupNo → Bool) (s : State) :
    Pass (List.finRange 32) (fun g => countEffect was s g (s.group g)) s (applyGroupCount was s) := by
  refine foldl_pass (fun g s' hs hx => ?_) _ s (List.nodup_finRange 32) (.refl s) fun _ _ => rfl
  unfold countEffect
  rw [hs.configured]
  split
  · split
    · exact stay_turn hx
    · exact unconfigureGroup_turn hs hx
  · split
    · exact configureGroup_turn hs hx
    · exact stay_turn hx

/-- The changes of the configuration do not reach the mode controller. -/
theorem applyGroupCount_stands (was : GroupNo → Bool) (s : State) : TimerStands s (applyGroupCount was s) := by
  have set : ∀ g s, TimerStands s (requestSet g s) := fun g s => by
    unfold requestSet resetAge
    split
    · dsimp only; split <;> exact ⟨rfl, rfl⟩
    · exact ⟨rfl, rfl⟩
    · exact ⟨rfl, rfl⟩
    · exact .refl s
  have turn : ∀ s g, TimerStands s (if was g then (if s.configured g then s else unconfigureGroup g s)
      else if s.configured g then configureGroup g s else s) := fun s g => by
    split
    · split
      · exact .refl s
      · unfold unconfigureGroup; dsimp only; split <;> exact ⟨rfl, rfl⟩
    · split
      · have h1 : TimerStands s (if s.mode.mode = .dark then s else orderGroup .flashing g s) := by
          split
          · exact .refl s
          · unfold orderGroup; split
            · exact .refl s
            · exact enterGroup_stands g _ none false s
        unfold configureGroup; dsimp only; split
        · exact h1.trans (set g _)
        · exact h1
      · exact .refl s
  have fold : ∀ (l : List GroupNo) (t : State), TimerStands s t → TimerStands s (l.foldl (fun s g =>
      if was g then (if s.configured g then s else unconfigureGroup g s)
      else if s.configured g then configureGroup g s else s) t) := by
    intro l
    induction l with
    | nil => exact fun _ h => h
    | cons a l ih => exact fun t h => ih _ (h.trans (turn t a))
  exact fold _ s (.refl s)

/-- The record of a change of the configuration, if any (R4, R8). -/
theorem countEffect_records (was : GroupNo → Bool) (s : State) (g : GroupNo) (x : Group) : (countEffect was s g x).records =
    if was g = true ∧ s.configured g = false ∧ x.state ≠ .unlit then [groupRecord s g .unlit x.state]
    else if was g = false ∧ s.configured g = true ∧ s.mode.mode ≠ .dark ∧ x.state ≠ .flashing then [groupRecord s g .flashing x.state]
    else [] := by
  have set : ∀ y, (setEffect y).records = [] := fun y => by unfold setEffect; split <;> rfl
  unfold countEffect
  rcases was g with _ | _ <;> rcases s.configured g with _ | _
  · rfl
  · have hc : (configureEffect s g x).records = (enlistEffect s g x).records := by
      unfold configureEffect
      split
      · simp only [Effect.andThen, set, List.append_nil]
      · rfl
    by_cases hd : s.mode.mode = .dark <;> by_cases hf : x.state = .flashing <;>
      simp [hc, enlistEffect, orderEffect, hd, hf, Effect.stay, Effect.enter]
  · by_cases hu : x.state = .unlit <;> simp [unconfigureEffect, hu]
  · simp [Effect.stay]

theorem countEffect_group_kept {was : GroupNo → Bool} {s : State} {g : GroupNo} (x : Group) (hw : was g = true)
    (hc : s.configured g = true) : (countEffect was s g x).group = x := by
  unfold countEffect; rw [hw, hc]; rfl

theorem countEffect_group_left {was : GroupNo → Bool} {s : State} {g : GroupNo} (x : Group) (hw : was g = true)
    (hc : s.configured g = false) : (countEffect was s g x).group = Group.unconfigured := by
  unfold countEffect; rw [hw, hc]; rfl

theorem countEffect_group_out {was : GroupNo → Bool} {s : State} {g : GroupNo} (x : Group) (hw : was g = false)
    (hc : s.configured g = false) : (countEffect was s g x).group = x := by
  unfold countEffect; rw [hw, hc]; rfl

/-- A group that joins from outside the configuration takes the state of the mode (R4). -/
theorem countEffect_group_joined {was : GroupNo → Bool} {s : State} {g : GroupNo} (hw : was g = false) (hc : s.configured g = true) :
    (countEffect was s g Group.unconfigured).group =
      { Group.unconfigured with state := if s.mode.mode = .dark then .unlit else .flashing } := by
  unfold countEffect configureEffect enlistEffect
  rw [hw, hc]
  by_cases hd : s.mode.mode = .dark <;> rcases s.goMask.getLsbD g.val with _ | _ <;> simp [hd] <;> rfl

/-- Outside DARK every group that joins is then in FLASHING (R4). -/
theorem countEffect_joined_flashing {was : GroupNo → Bool} {s : State} {g : GroupNo} (x : Group) (hw : was g = false)
    (hc : s.configured g = true) (hd : s.mode.mode ≠ .dark) : (countEffect was s g x).group.state = .flashing := by
  have he : (enlistEffect s g x).group.state = .flashing := by
    unfold enlistEffect
    rw [if_neg hd, orderEffect_group, Group.ordered]
    split
    · assumption
    · rfl
  unfold countEffect configureEffect
  rw [hw, hc]
  rcases s.goMask.getLsbD g.val with _ | _
  · exact he
  · show (setEffect _).group.state = _
    rw [setEffect_group, afterSet, he]; exact he

/-! ### The call bits and the signs -/

/-- The call bits under the new group count, bit by bit (R125). -/
theorem applyCalls_getLsbD (was : GroupNo → Bool) (s : State) (g : GroupNo) : (applyCalls was s).detectors.calls.getLsbD g.val =
    ((s.detectors.calls.getLsbD g.val && (was g && s.configured g)) || (s.standing.getLsbD g.val && !was g)) := by
  show (s.detectors.calls &&& maskOf (fun g => was g && s.configured g) ||| (s.standing &&& ~~~maskOf was)).getLsbD g.val = _
  rw [BitVec.getLsbD_or, BitVec.getLsbD_and, BitVec.getLsbD_and, BitVec.getLsbD_not, maskOf_getLsbD, maskOf_getLsbD]
  simp

theorem applyCalls_group (was : GroupNo → Bool) (s : State) (g : GroupNo) : (applyCalls was s).group g = s.group g := rfl

theorem applyCalls_queue (was : GroupNo → Bool) (s : State) : (applyCalls was s).queue = s.queue := rfl

theorem applyCalls_stands (was : GroupNo → Bool) (s : State) : TimerStands s (applyCalls was s) := ⟨rfl, rfl⟩

theorem applyCalls_frame (was : GroupNo → Bool) (s : State) : GroupFrame s (applyCalls was s) := by
  constructor <;> rfl

theorem setEffect_calls (x : Group) : (setEffect x).calls = false := by unfold setEffect; split <;> rfl

/-- The changes of the configuration clear no call (R125). -/
theorem countEffect_calls (was : GroupNo → Bool) (s : State) (g : GroupNo) (x : Group) : (countEffect was s g x).calls = false := by
  have he : (enlistEffect s g x).calls = false := by
    unfold enlistEffect orderEffect
    split
    · rfl
    · split <;> rfl
  unfold countEffect
  rcases was g with _ | _ <;> rcases s.configured g with _ | _
  · rfl
  · show (configureEffect s g x).calls = false
    unfold configureEffect
    split
    · simp [Effect.andThen, he, setEffect_calls]
    · exact he
  · rfl
  · rfl

/-- Whether a sign record keeps its state over a completion, from the tables before and after (R145). -/
theorem keepsSign_iff (s u : State) (r : SignNo) : keepsSign s u r = true ↔
    ((s.signUsed r = true ∧ u.signUsed r = true ∧ (s.signRecord r).address = (u.signRecord r).address) ∨
      (s.signUsed r = false ∧ u.signUsed r = false)) := by
  simp [keepsSign, signKept, and_assoc]

end Sys2Proof.Machine

/-! PROOFS. The end of a commit (R172). -/

namespace Sys2Proof.Machine

open Sys2Proof

/-! ### The new tables stored -/

/-- The new tables stored, the sign link told, and the COMMIT record submitted: what the other blocks follow (R172). -/
def commitStored (s : State) : State := submitCommit .done (applySigns s (storeNewTables s))

/-- The COMMIT record (R174). -/
def commitRecord (s : State) : Said := (.commit, lowWord s.clock, 0xFF, 4)

section

variable (s : State)

/-- The sign link after the tables are stored (R145). -/
def commitLink : SignLink := (applySigns s (storeNewTables s)).link

/-- The table store after the tables are stored (R172). -/
def commitStore : TableStore := { s.store with
  nv := { s.store.nv with active := s.store.staging, valid := true, commits := min (s.store.nv.commits + 1) 16777215 }
  busy := false, result := .done }

theorem storeNewTables_eq : storeNewTables s = { s with store := commitStore s } := rfl

theorem submitCommit_done : submitCommit .done s = { s with queue := s.queue.submits [commitRecord s] } := rfl

theorem applySigns_eq (old u : State) : applySigns old u = { u with link := (applySigns old u).link } := rfl

theorem commitStored_eq :
    commitStored s = { s with link := commitLink s, store := commitStore s, queue := s.queue.submits [commitRecord s] } := by
  rw [commitStored, submitCommit_done, applySigns_eq]
  rfl

theorem commitStored_group (g : GroupNo) : (commitStored s).group g = s.group g := by rw [commitStored_eq]; rfl

theorem commitStored_mode : (commitStored s).mode = s.mode := by rw [commitStored_eq]

theorem commitStored_parts : (commitStored s).parts = s.parts := by rw [commitStored_eq]

theorem commitStored_detectors : (commitStored s).detectors = s.detectors := by rw [commitStored_eq]

theorem commitStored_page : (commitStored s).page = s.page := by rw [commitStored_eq]

theorem commitStored_clock : (commitStored s).clock = s.clock := by rw [commitStored_eq]

theorem commitStored_link : (commitStored s).link = commitLink s := by rw [commitStored_eq]

theorem commitStored_store : (commitStored s).store = commitStore s := by rw [commitStored_eq]

theorem commitStored_queue : (commitStored s).queue = s.queue.submits [commitRecord s] := by rw [commitStored_eq]

/-! ### The configuration followed -/

/-- The configuration followed: the groups and the call bits (R4, R125). -/
def commitFollowed : State := applyCalls s.configured (applyGroupCount s.configured (commitStored s))

theorem completeCommit_eq : completeCommit s = actOnPending (commitFollowed s) := rfl

/-- The effect of the new configuration on a group. -/
def commitEffect (g : GroupNo) : Effect := countEffect s.configured (commitStored s) g (s.group g)

theorem commit_pass : Pass (List.finRange 32) (commitEffect s) (commitStored s) (applyGroupCount s.configured (commitStored s)) := by
  have h := applyGroupCount_pass s.configured (commitStored s)
  simp only [commitStored_group] at h
  exact h

theorem commitFollowed_frame : GroupFrame (commitStored s) (commitFollowed s) := (commit_pass s).frame.trans (applyCalls_frame _ _)

theorem commitFollowed_group (g : GroupNo) : (commitFollowed s).group g = (commitEffect s g).group := by
  rw [commitFollowed, applyCalls_group, (commit_pass s).group g (List.mem_finRange g)]

theorem commitFollowed_stands : TimerStands (commitStored s) (commitFollowed s) :=
  (applyGroupCount_stands s.configured (commitStored s)).trans (applyCalls_stands _ _)

/-- The call bits after the configuration is followed (R125). -/
theorem commitFollowed_calls (g : GroupNo) : (commitFollowed s).detectors.calls.getLsbD g.val =
    ((s.detectors.calls.getLsbD g.val && (s.configured g && (commitStored s).configured g)) ||
      ((commitStored s).standing.getLsbD g.val && !s.configured g)) := by
  have h := commit_pass s
  have hc : (commitEffect s g).calls = false := countEffect_calls ..
  have hcalls := h.calls g
  rw [hc, commitStored_detectors] at hcalls
  rw [commitFollowed, applyCalls_getLsbD, h.frame.configured, h.frame.standing, hcalls]
  simp

/-- The records of the changes of the configuration, in ascending group number (R4, R8). -/
def countRecords : List Said := (List.finRange 32).flatMap fun g => (commitEffect s g).records

theorem commitFollowed_queue : (commitFollowed s).queue = s.queue.submits (commitRecord s :: countRecords s) := by
  rw [commitFollowed, applyCalls_queue, (commit_pass s).queue, commitStored_queue, ← Queue.submits_append]; rfl

theorem commitEffect_records (g : GroupNo) : (commitEffect s g).records =
    if s.configured g = true ∧ (commitStored s).configured g = false ∧ (s.group g).state ≠ .unlit
    then [groupRecord s g .unlit (s.group g).state]
    else if s.configured g = false ∧ (commitStored s).configured g = true ∧ s.mode.mode ≠ .dark ∧ (s.group g).state ≠ .flashing
    then [groupRecord s g .flashing (s.group g).state] else [] := by
  rw [commitEffect, countEffect_records, commitStored_mode]
  simp only [groupRecord, commitStored_clock]

end

end Sys2Proof.Machine

/-! PROOFS. What the end of a commit leaves, with normal-pending acted on or not (R50, R51, R172). -/

namespace Sys2Proof.Machine

open Sys2Proof

/-! ### What reads the tables alone -/

theorem configured_congr {s t : State} (h : t.store = s.store) (g : GroupNo) : t.configured g = s.configured g := by
  unfold State.configured State.groupCount State.active
  rw [h]

theorem configuredMask_congr {s t : State} (h : t.store = s.store) : t.configuredMask = s.configuredMask := by
  simp only [State.configuredMask, funext (configured_congr h)]

theorem standing_congr {s t : State} (hd : t.detectors.detectors = s.detectors.detectors) (h : t.store = s.store) :
    t.standing = s.standing := by
  simp only [State.standing, configuredMask_congr h, hd]

theorem atAllStop_congr {s t : State} (h : t.store = s.store) (g : GroupNo) : atAllStop t g = atAllStop s g := by
  unfold atAllStop State.record State.active
  rw [h]

/-! ### The sign link -/

section

variable (s : State)

theorem commitLink_eq : commitLink s = { s.link with signs := (commitLink s).signs, poll := (commitLink s).poll } := rfl

theorem commitLink_poll : (commitLink s).poll = s.link.poll.map (pollAfter s (storeNewTables s)) := rfl

theorem commitLink_signs (r : SignNo) : (commitLink s).signs.get r =
    if keepsSign s (storeNewTables s) r then s.link.signs.get r else Sign.atReset :=
  vector_get_ofFn (fun r : SignNo => if keepsSign s (storeNewTables s) r then s.link.signs.get r else Sign.atReset) r

/-- A record keeps its state where it is used with one address before and after, or unused before and after (R145). -/
theorem keepsSign_commit (r : SignNo) : keepsSign s (storeNewTables s) r = true ↔
    (((s.store.nv.valid = true ∧ (s.active.signs.get r).used = true) ∧ (s.store.staging.signs.get r).used = true ∧
        (s.active.signs.get r).address = (s.store.staging.signs.get r).address) ∨
      (¬(s.store.nv.valid = true ∧ (s.active.signs.get r).used = true) ∧ ¬(s.store.staging.signs.get r).used = true)) := by
  have h1 : s.signUsed r = true ↔ s.store.nv.valid = true ∧ (s.active.signs.get r).used = true := by
    simp [State.signUsed, State.signRecord]
  have h2 : (storeNewTables s).signUsed r = (s.store.staging.signs.get r).used := by
    simp only [State.signUsed, storeNewTables_eq, commitStore, State.signRecord, State.active, Bool.true_and]
  rw [keepsSign_iff, h1, ← Bool.not_eq_true, h1, h2, ← Bool.not_eq_true]
  rfl

/-! ### The whole state -/

/-- What the end of a commit leaves beside the mode, the request page and the queue. -/
structure AfterCommit (s t : State) : Prop where
  store : t.store = commitStore s
  tap : t.tap = s.tap
  clock : t.clock = s.clock
  latches : t.latches = s.latches
  bus : t.bus = s.bus
  arbiter : t.arbiter = s.arbiter
  pending : t.pending = s.pending
  powerOnHeld : t.powerOnHeld = s.powerOnHeld
  externalHeld : t.externalHeld = s.externalHeld
  lamps : t.lamps = { s.lamps with goMark := t.lamps.goMark }
  detectors : t.detectors = { s.detectors with calls := t.detectors.calls }
  parts : t.parts = { s.parts with
    heldTimers := t.parts.heldTimers, heldElapsed := t.parts.heldElapsed, heldAges := t.parts.heldAges
    heldModeTimer := t.parts.heldModeTimer, heldLiveness := t.parts.heldLiveness }
  link : t.link = commitLink s
  calls : ∀ g : GroupNo, t.detectors.calls.getLsbD g.val =
    ((s.detectors.calls.getLsbD g.val && (s.configured g && (commitStored s).configured g)) ||
      ((commitStored s).standing.getLsbD g.val && !s.configured g))

theorem commitFollowed_after : AfterCommit s (commitFollowed s) := by
  have h := commitFollowed_frame s
  have hc := commitFollowed_calls s
  have hd := h.detectors
  have hp := h.parts
  have hl := h.lamps
  have hs := h.store
  have hk := h.link
  rw [commitStored_detectors] at hd
  rw [commitStored_parts] at hp
  rw [commitStored_store] at hs
  rw [commitStored_link] at hk
  have h1 := h.tap
  have h2 := h.clock
  have h3 := h.latches
  have h4 := h.bus
  have h5 := h.arbiter
  have h6 := h.pending
  have h7 := h.powerOnHeld
  have h8 := h.externalHeld
  rw [commitStored_eq] at hl h1 h2 h3 h4 h5 h6 h7 h8
  generalize commitFollowed s = t at *
  exact ⟨hs, h1, h2, h3, h4, h5, h6, h7, h8, hl, hd, by rw [hp], hk, hc⟩

end

theorem startLiveness_detectors (s : State) : (startLiveness s).detectors = s.detectors := rfl

/-- The orders of ALL_STOP entry clear no call. -/
theorem allStopEntry_calls (s : State) (g : GroupNo) : (allStopEntry s).detectors.calls.getLsbD g.val = s.detectors.calls.getLsbD g.val := by
  have h := Pass.calls (allStopOrders_sweep (modeStart .allStop .software s)) g
  have he : ∀ g x, (Effect.onConfigured (modeStart .allStop .software s) g (allStopEffect (modeStart .allStop .software s) g x)).calls = false :=
    fun g x => by
      unfold Effect.onConfigured allStopEffect
      split
      · split <;> rfl
      · rfl
  rw [he] at h
  rw [allStopEntry, startLiveness_detectors, changeMode_eq, h]
  simp; rfl

/-- Entry to ALL_STOP after the configuration is followed leaves what it left. -/
theorem AfterCommit.allStopEntry {s u : State} (h : AfterCommit s u) (b : Bool) :
    AfterCommit s (allStopEntry (setNormalPending b u)) := by
  have hc : ModeChange u (Machine.allStopEntry (setNormalPending b u)) .allStop .software :=
    allStopEntry_change (.withAside { u.aside with normalPending := b } u)
  have hcalls := allStopEntry_calls (setNormalPending b u)
  obtain ⟨-, -, hs, hb⟩ := allStopEntry_leaves (setNormalPending b u)
  generalize Machine.allStopEntry (setNormalPending b u) = t at *
  have hd := hc.detectors
  have hp := hc.parts
  have hl := hc.lamps
  exact {
    store := hs.trans h.store
    tap := hc.tap.trans h.tap
    clock := hc.clock.trans h.clock
    latches := hc.latches.trans h.latches
    bus := hb.trans h.bus
    arbiter := hc.arbiter.trans h.arbiter
    pending := hc.pending.trans h.pending
    powerOnHeld := hc.resets.1.trans h.powerOnHeld
    externalHeld := hc.resets.2.trans h.externalHeld
    lamps := by rw [hl, h.lamps]
    detectors := by rw [hd, h.detectors]
    parts := by rw [hp, h.parts]
    link := hc.link.trans h.link
    calls := fun g => (hcalls g).trans (h.calls g) }

end Sys2Proof.Machine

/-! PROOFS. The whole of COMMIT_COMPLETION (R172). -/

namespace Sys2Proof.Machine

open Sys2Proof

section

variable {s t : State}

theorem AfterCommit.configured (h : AfterCommit s t) (g : GroupNo) : t.configured g = (commitStored s).configured g :=
  configured_congr (h.store.trans (commitStored_store s).symm) g

theorem AfterCommit.standing (h : AfterCommit s t) : t.standing = (commitStored s).standing := by
  refine standing_congr ?_ (h.store.trans (commitStored_store s).symm)
  rw [h.detectors, commitStored_detectors]

/-- Each sign record and the poll in flight after the end of a commit (R145). -/
theorem AfterCommit.signs (h : AfterCommit s t) (r : SignNo) :
    let was := s.store.nv.valid = true ∧ (s.active.signs.get r).used = true
    let is := (s.store.staging.signs.get r).used = true
    let kept := (was ∧ is ∧ (s.active.signs.get r).address = (s.store.staging.signs.get r).address) ∨ (¬was ∧ ¬is)
    t.link.signs.get r = (if kept then s.link.signs.get r else Sign.atReset) ∧
    ∀ p : Poll, s.link.poll = some p → p.record = r → t.link.poll = some { p with discarded := p.discarded || decide (¬kept) } := by
  intro was is kept
  have hk : keepsSign s (storeNewTables s) r = decide kept := by
    rw [Bool.eq_iff_iff, keepsSign_commit, decide_eq_true_iff]
  refine ⟨?_, fun p hp hr => ?_⟩
  · rw [h.link, commitLink_signs, hk]
    simp only [decide_eq_true_iff]
  · rw [h.link, commitLink_poll, hp, Option.map_some, pollAfter, hr, hk, decide_not]

/-- The call bits after the end of a commit (R125). -/
theorem AfterCommit.callBits (h : AfterCommit s t) (g : GroupNo) :
    (s.configured g = true → t.configured g = true → t.detectors.calls.getLsbD g.val = s.detectors.calls.getLsbD g.val) ∧
    (t.configured g = false → t.detectors.calls.getLsbD g.val = false) ∧
    (s.configured g = false → t.configured g = true → t.detectors.calls.getLsbD g.val = t.standing.getLsbD g.val) := by
  rw [h.calls, h.configured, h.standing]
  refine ⟨fun h1 h2 => ?_, fun h1 => ?_, fun h1 h2 => ?_⟩
  · rw [h1, h2]; simp
  · have hs : (commitStored s).standing.getLsbD g.val = false := by rw [standing_getLsbD, h1]; simp
    rw [h1, hs]; simp
  · rw [h1]; simp

/-- The mode controller does not act on normal-pending (R50). -/
theorem completeCommit_stands (h : ¬(s.mode.mode = .flash ∧ s.mode.normalPending = true)) : completeCommit s = commitFollowed s := by
  have hm : (commitFollowed s).mode = s.mode := (commitFollowed_stands s).mode.trans (commitStored_mode s)
  rw [completeCommit_eq, actOnPending, hm, if_neg h]

/-- In FLASH with normal-pending set it enters ALL_STOP (R50). -/
theorem completeCommit_acts (h : s.mode.mode = .flash ∧ s.mode.normalPending = true) :
    completeCommit s = allStopEntry (setNormalPending false (commitFollowed s)) := by
  have hm : (commitFollowed s).mode = s.mode := (commitFollowed_stands s).mode.trans (commitStored_mode s)
  rw [completeCommit_eq, actOnPending, hm, if_pos h]

theorem completeCommit_after (s : State) : AfterCommit s (completeCommit s) := by
  by_cases h : s.mode.mode = .flash ∧ s.mode.normalPending = true
  · rw [completeCommit_acts h]
    exact (commitFollowed_after s).allStopEntry false
  · rw [completeCommit_stands h]
    exact commitFollowed_after s

/-! ### The groups -/

theorem commitEffect_kept {g : GroupNo} (h1 : s.configured g = true) (h2 : (commitStored s).configured g = true) :
    (commitEffect s g).group = s.group g := countEffect_group_kept (s.group g) h1 h2

theorem commitEffect_left {g : GroupNo} (h1 : s.configured g = true) (h2 : (commitStored s).configured g = false) :
    (commitEffect s g).group = Group.unconfigured := countEffect_group_left (s.group g) h1 h2

theorem commitEffect_out {g : GroupNo} (h1 : s.configured g = false) (h2 : (commitStored s).configured g = false) :
    (commitEffect s g).group = s.group g := countEffect_group_out (s.group g) h1 h2

theorem commitEffect_joined {g : GroupNo} (h1 : s.configured g = false) (h2 : (commitStored s).configured g = true)
    (hg : s.group g = Group.unconfigured) : (commitEffect s g).group =
      { Group.unconfigured with state := if s.mode.mode = .dark then .unlit else .flashing } := by
  rw [commitEffect, hg, countEffect_group_joined h1 h2, commitStored_mode]

/-- The state of a group as ALL_STOP entry at the end of a commit finds it, in FLASH (R4, R50). -/
theorem commitEffect_state {g : GroupNo} (h2 : (commitStored s).configured g = true) (hm : s.mode.mode = .flash) :
    (commitEffect s g).group.state = if s.configured g then (s.group g).state else .flashing := by
  rcases h1 : s.configured g with _ | _
  · exact countEffect_joined_flashing (s.group g) h1 h2 (by rw [commitStored_mode, hm]; simp)
  · rw [commitEffect_kept h1 h2]; rfl

/-- The groups outside the new configuration stand as the group sequencer leaves them, whatever the mode does then (R4). -/
theorem completeCommit_unconfigured {g : GroupNo} (h : (commitStored s).configured g = false) :
    (completeCommit s).group g = (commitEffect s g).group := by
  by_cases ha : s.mode.mode = .flash ∧ s.mode.normalPending = true
  · have hc : ModeChange (commitFollowed s) (allStopEntry (setNormalPending false (commitFollowed s))) .allStop .software :=
      allStopEntry_change (.withAside { (commitFollowed s).aside with normalPending := false } (commitFollowed s))
    rw [completeCommit_acts ha, hc.unconfigured g (((commitFollowed_after s).configured g).trans h), commitFollowed_group]
  · rw [completeCommit_stands ha, commitFollowed_group]

end

/-! ### The queue -/

/-- A flat map of at most one record for each group of a predicate lists them. -/
theorem flatMap_ite_singleton {α β : Type} (p : α → Prop) [DecidablePred p] (f : α → β) (l : List α) :
    (l.flatMap fun a => if p a then [f a] else []) = (l.filter fun a => p a).map f := by
  induction l with
  | nil => rfl
  | cons a l ih =>
    rw [List.flatMap_cons, List.filter_cons, ih]
    by_cases h : p a <;> simp [h]

/-- The GROUP_STATE records of the orders of ALL_STOP entry, in ascending group number (R8, R51). -/
def orderRecords (s : State) : List Said :=
  ((List.finRange 32).filter fun g => s.configured g = true).map fun g => groupRecord s g (atAllStop s g).state (s.group g).state

theorem allStopEffect_records (s : State) (g : GroupNo) (x : Group) :
    (allStopEffect s g x).records = [groupRecord s g (atAllStop s g).state x.state] := by
  unfold allStopEffect atAllStop
  split <;> rfl

theorem startLiveness_queue (s : State) : (startLiveness s).queue = s.queue := rfl

/-- The submissions of ALL_STOP entry. -/
theorem allStopEntry_queue (s : State) :
    (allStopEntry s).queue = s.queue.submits (modeRecord .allStop .software s :: orderRecords s) := by
  have h := (allStopOrders_sweep (modeStart .allStop .software s)).queue
  rw [sweepRecords] at h
  simp only [allStopEffect_records] at h
  rw [flatMap_ite_singleton] at h
  rw [allStopEntry, startLiveness_queue, changeMode_eq, h]
  rfl

/-- The submissions of the end of a commit: the COMMIT record, the changes of the configuration, and where the mode controller acts the MODE
record and the orders. -/
theorem completeCommit_queue (s : State) : (completeCommit s).queue = s.queue.submits (commitRecord s :: countRecords s ++
    if s.mode.mode = .flash ∧ s.mode.normalPending = true
    then modeRecord .allStop .software (commitFollowed s) :: orderRecords (commitFollowed s) else []) := by
  by_cases h : s.mode.mode = .flash ∧ s.mode.normalPending = true
  · have hq : (setNormalPending false (commitFollowed s)).queue = (commitFollowed s).queue := rfl
    rw [completeCommit_acts h, if_pos h, allStopEntry_queue, hq, commitFollowed_queue, ← Queue.submits_append]
    rfl
  · rw [completeCommit_stands h, if_neg h,
      List.append_nil, commitFollowed_queue]

/-- The records of a block among those of one block. -/
theorem filter_block_eq {l : List Said} {b : Block} (h : ∀ c ∈ l, c.1.block = b) (b' : Block) :
    l.filter (fun c => c.1.block = b') = if b' = b then l else [] := by
  split
  · rename_i e
    exact List.filter_eq_self.2 fun c hc => by simp [h c hc, e]
  · rename_i e
    exact List.filter_eq_nil_iff.2 fun c hc => by simp only [h c hc, decide_eq_true_iff]; exact fun k => e k.symm

theorem orderRecords_block (s : State) : ∀ c ∈ orderRecords s, c.1.block = .groupSequencer := fun c hc => by
  obtain ⟨g, -, rfl⟩ := List.mem_map.1 hc; rfl

theorem countRecords_block (s : State) : ∀ c ∈ countRecords s, c.1.block = .groupSequencer := fun c hc => by
  obtain ⟨g, -, hg⟩ := List.mem_flatMap.1 hc
  rw [commitEffect_records] at hg
  split at hg
  · rw [List.mem_singleton.1 hg]; rfl
  · split at hg
    · rw [List.mem_singleton.1 hg]; rfl
    · cases hg

theorem countRecords_length (s : State) : (countRecords s).length ≤ 32 := by
  have h := length_flatMap_le (n := 1) (f := fun g => (commitEffect s g).records) (fun g => by
    rw [commitEffect_records]; split
    · rfl
    · split <;> simp) (List.finRange 32)
  rw [List.length_finRange] at h
  exact h

theorem orderRecords_length (s : State) : (orderRecords s).length ≤ 32 := by
  have h := List.length_filter_le (fun g => decide (s.configured g = true)) (List.finRange 32)
  rw [List.length_finRange] at h
  rw [orderRecords, List.length_map]; exact h

/-- The orders at the end of a commit, told from the state before it (R8, R51). -/
theorem orderRecords_commit {s t : State} (h : AfterCommit s t) (hm : s.mode.mode = .flash) : orderRecords (commitFollowed s) =
    ((List.finRange 32).filter fun g => t.configured g = true).map fun g =>
      groupRecord s g (atAllStop t g).state (if s.configured g then (s.group g).state else .flashing) := by
  have hu := commitFollowed_after s
  have hconf : ∀ g, (commitFollowed s).configured g = t.configured g := fun g => (hu.configured g).trans (h.configured g).symm
  have hstop : ∀ g, atAllStop (commitFollowed s) g = atAllStop t g := atAllStop_congr (hu.store.trans h.store.symm)
  unfold orderRecords
  simp only [hconf, hstop]
  refine List.map_congr_left fun g hg => ?_
  have hc : (commitStored s).configured g = true := by
    rw [← h.configured]; exact of_decide_eq_true (List.mem_filter.1 hg).2
  rw [commitFollowed_group, commitEffect_state hc hm, groupRecord, hu.clock]; rfl

/-- The records of the end of a commit, by block (R8, R174). -/
theorem completeCommit_records (s : State) (hq : s.queue.held.length ≤ 60) :
    let t := completeCommit s
    let acts := s.mode.mode = .flash ∧ s.mode.normalPending = true
    t.queue.ofBlock .tableStore = s.queue.ofBlock .tableStore ++ [commitRecord s] ∧
    t.queue.ofBlock .modeController = s.queue.ofBlock .modeController ++
      (if acts then [(EventKind.mode, lowWord s.clock, (0xFF : Byte), modeDetail .allStop .flash .software)] else []) ∧
    t.queue.ofBlock .groupSequencer = s.queue.ofBlock .groupSequencer ++ countRecords s ++
      (if acts then orderRecords (commitFollowed s) else []) ∧
    ∀ b, b ≠ .tableStore → b ≠ .modeController → b ≠ .groupSequencer → t.queue.ofBlock b = s.queue.ofBlock b := by
  intro t acts
  have h1 := countRecords_length s
  have h2 := orderRecords_length (commitFollowed s)
  have hlen : s.queue.held.length + (commitRecord s :: countRecords s ++
      if acts then modeRecord .allStop .software (commitFollowed s) :: orderRecords (commitFollowed s) else []).length ≤ 128 := by
    rw [List.length_append, List.length_cons]
    split
    · rw [List.length_cons]; omega
    · rw [List.length_nil]; omega
  have hof : ∀ b, t.queue.ofBlock b = s.queue.ofBlock b ++ (commitRecord s :: countRecords s ++
      if acts then modeRecord .allStop .software (commitFollowed s) :: orderRecords (commitFollowed s) else []).filter
        (fun c => c.1.block = b) := fun b => by
    rw [show t.queue = _ from completeCommit_queue s]
    exact Queue.submits_ofBlock _ hlen b
  have hmode : acts → modeRecord .allStop .software (commitFollowed s) =
      (EventKind.mode, lowWord s.clock, (0xFF : Byte), modeDetail .allStop .flash .software) := fun ha => by
    rw [modeRecord, (commitFollowed_after s).clock, (commitFollowed_stands s).mode, commitStored_mode, ha.1]
  have hfilter : ∀ b, (commitRecord s :: countRecords s ++
      if acts then modeRecord .allStop .software (commitFollowed s) :: orderRecords (commitFollowed s) else []).filter
        (fun c => c.1.block = b) =
      (if b = .tableStore then [commitRecord s] else []) ++ (if b = .groupSequencer then countRecords s else []) ++
        if acts then (if b = .modeController then [modeRecord .allStop .software (commitFollowed s)] else []) ++
          (if b = .groupSequencer then orderRecords (commitFollowed s) else []) else [] := fun b => by
    rw [List.filter_append, ← List.singleton_append, List.filter_append, filter_block_eq (countRecords_block s),
      filter_block_eq (b := .tableStore) (by simp [commitRecord, EventKind.block])]
    congr 1
    split
    · rw [← List.singleton_append, List.filter_append, filter_block_eq (orderRecords_block _),
        filter_block_eq (b := .modeController) (by simp [modeRecord, EventKind.block])]
    · rfl
  have hblock := fun b => (hof b).trans (congrArg _ (hfilter b))
  by_cases ha : acts
  · simp only [hblock, if_pos ha, hmode ha]
    refine ⟨by simp, by simp, by simp, fun b hb1 hb2 hb3 => by simp [hb1, hb2, hb3]⟩
  · simp only [hblock, if_neg ha]
    refine ⟨by simp, by simp, by simp, fun b hb1 hb2 hb3 => by simp [hb1, hb3]⟩

/-- The end of a commit in which the mode stands (R4, R172). -/
theorem completeCommit_standing {s : State} (h : ¬(s.mode.mode = .flash ∧ s.mode.normalPending = true)) :
    let t := completeCommit s
    t.mode = s.mode ∧ t.page = s.page ∧ t.parts.heldModeTimer = s.parts.heldModeTimer ∧
    t.parts.heldLiveness = s.parts.heldLiveness ∧
    (∀ g, s.configured g = true → t.configured g = true → t.group g = s.group g) ∧
    ∀ g, s.configured g = false → t.configured g = true → s.group g = Group.unconfigured →
      t.group g = { Group.unconfigured with state := if s.mode.mode = .dark then .unlit else .flashing } := by
  intro t
  have ha := completeCommit_after s
  have hm := commitFollowed_stands s
  have hf := commitFollowed_frame s
  have hg := commitFollowed_group s
  have hp : (commitFollowed s).parts.heldLiveness = (commitStored s).parts.heldLiveness := by rw [hf.parts]
  have ht : t = commitFollowed s := completeCommit_stands h
  rw [← show t = completeCommit s from rfl] at ha
  rw [← ht] at hm hg hp
  refine ⟨hm.mode.trans (commitStored_mode s), ?_, ?_, ?_, fun g h1 h2 => ?_, fun g h1 h2 h3 => ?_⟩
  · rw [ht, hf.page, commitStored_page]
  · rw [hm.heldModeTimer, commitStored_parts]
  · rw [hp, commitStored_parts]
  · rw [hg, commitEffect_kept h1 ((ha.configured g).symm.trans h2)]
  · rw [hg, commitEffect_joined h1 ((ha.configured g).symm.trans h2) h3]

/-- The whole mode controller after a change of mode (R45, R47). -/
theorem ModeChange.modeControl {s t : State} {m : Mode} {c : Cause} (h : ModeChange s t m c) {b : Bool}
    (hn : t.mode.normalPending = b) : t.mode = { s.mode with
      mode := m, cause := c, normalPending := b, startFlashTimer := 0, allStopTimer := 0, flashEntryTimer := 0
      running := t.mode.running } := by
  obtain ⟨h1, h2, h3⟩ := h.timers
  obtain ⟨h4, h5, h6⟩ := h.filters
  show ModeControl.mk t.mode.mode t.mode.cause t.mode.normalPending t.mode.startFlashTimer t.mode.allStopTimer t.mode.flashEntryTimer
    t.mode.running t.mode.h0 t.mode.h1 t.mode.switch = _
  rw [h.mode, h.cause, hn, h1, h2, h3, h4, h5, h6]

/-- The end of a commit in which the mode goes to ALL_STOP (R50, R51, R52). -/
theorem completeCommit_entering {s : State} (h : s.mode.mode = .flash ∧ s.mode.normalPending = true) :
    let t := completeCommit s
    t.mode = { s.mode with
      mode := .allStop, cause := .software, normalPending := false, startFlashTimer := 0, allStopTimer := 0, flashEntryTimer := 0
      running := t.mode.running } ∧
    t.page = { s.page with liveness := 0 } ∧ t.parts.heldLiveness = s.parts.liveness ∧
    t.parts.heldModeTimer = (t.mode.running && s.parts.modeTimer) ∧
    ((∃ g, t.configured g = true) → (∀ g, s.configured g = true → (s.group g).state ≠ .stop) → t.mode.running = t.allStopped) ∧
    ∀ g, t.configured g = true → t.group g = atAllStop t g ∧
      (s.parts.sequencer = true → t.parts.heldTimers.getLsbD g.val = true ∧ t.parts.heldElapsed.getLsbD g.val = true) := by
  intro t
  have ha : AfterCommit s t := completeCommit_after s
  have hu := commitFollowed_after s
  have hf := commitFollowed_frame s
  have hm : (commitFollowed s).mode = s.mode := (commitFollowed_stands s).mode.trans (commitStored_mode s)
  have hpage : (commitFollowed s).page = s.page := hf.page.trans (commitStored_page s)
  have ht : t = allStopEntry (setNormalPending false (commitFollowed s)) := completeCommit_acts h
  have hparts : (commitFollowed s).parts.liveness = s.parts.liveness ∧ (commitFollowed s).parts.modeTimer = s.parts.modeTimer ∧
      (commitFollowed s).parts.sequencer = s.parts.sequencer := by rw [hu.parts]; exact ⟨rfl, rfl, rfl⟩
  have hconf : ∀ g, (commitFollowed s).configured g = t.configured g := fun g => (hu.configured g).trans (ha.configured g).symm
  have hgroup := commitFollowed_group s
  have hc : ModeChange (commitFollowed s) t .allStop .software :=
    ht ▸ allStopEntry_change (.withAside { (commitFollowed s).aside with normalPending := false } (commitFollowed s))
  have hl := allStopEntry_leaves (setNormalPending false (commitFollowed s))
  have hat : ∀ g, (commitFollowed s).configured g = true → t.group g = atAllStop t g := fun g hg => by
    rw [atAllStop_congr (ha.store.trans hu.store.symm), ht]
    exact allStopEntry_atAllStop (s := setNormalPending false (commitFollowed s)) hg
  rw [← ht] at hl
  clear_value t
  generalize commitFollowed s = u at *
  refine ⟨?_, ?_, hc.heldLiveness.trans hparts.1, ?_, fun ⟨g, hg⟩ hst => ?_, fun g hg => ⟨hat g ((hconf g).trans hg), fun hs => ?_⟩⟩
  · rw [← hm]; exact hc.modeControl hl.1
  · rw [← hpage]; exact hl.2.1
  · rw [hc.heldModeTimer, hparts.2.1]
  · refine (hc.running fun _ => ⟨⟨g, (hconf g).trans hg⟩, fun i hi => ?_⟩).trans (Bool.true_and _)
    rw [hgroup, commitEffect_state ((ha.configured i).symm.trans ((hconf i).symm.trans hi)) h.1]
    split
    · rename_i hw; exact hst i hw
    · simp
  · obtain ⟨h1, h2⟩ := hc.heldBack g
    rw [hparts.2.2, hs, entersState, hconf, hg] at h1 h2
    exact ⟨by simpa using h1, by simpa using h2⟩

/-- The groups outside the new configuration (R4). -/
theorem completeCommit_outside {s : State} {g : GroupNo} (h : (completeCommit s).configured g = false) :
    (s.configured g = true → (completeCommit s).group g = Group.unconfigured) ∧
    (s.configured g = false → (completeCommit s).group g = s.group g) := by
  have hc := ((completeCommit_after s).configured g).symm.trans h
  rw [completeCommit_unconfigured hc]
  exact ⟨fun h1 => commitEffect_left h1 hc, fun h1 => commitEffect_out h1 hc⟩

/-- The records of the changes of the configuration, told from the state after the commit (R4, R8). -/
theorem countRecords_eq {s t : State} (h : AfterCommit s t) : countRecords s = (List.finRange 32).flatMap fun g =>
    if s.configured g = true ∧ t.configured g = false ∧ (s.group g).state ≠ .unlit then [groupRecord s g .unlit (s.group g).state]
    else if s.configured g = false ∧ t.configured g = true ∧ s.mode.mode ≠ .dark ∧ (s.group g).state ≠ .flashing
    then [groupRecord s g .flashing (s.group g).state] else [] := by
  unfold countRecords
  simp only [commitEffect_records, h.configured]

/-- Settles O53: the tables stored, the configuration followed, and normal-pending acted on. -/
theorem commitCompletionTakesTheTables : Obligations.CommitCompletionTakesTheTables := by
  unfold Obligations.CommitCompletionTakesTheTables
  intro s
  refine ⟨fun hb => ?_, fun hb => ?_⟩
  · show Host.Outcome.next (if s.store.busy then completeCommit s else s) = _
    rw [hb]; rfl
  have hexec : exec .commitCompletion s = .next (completeCommit s) := by
    show Host.Outcome.next (if s.store.busy then completeCommit s else s) = _
    rw [hb]; rfl
  have h := completeCommit_after s
  have hout := fun g => completeCommit_outside (s := s) (g := g)
  have hstand := completeCommit_standing (s := s)
  have henter := completeCommit_entering (s := s)
  have hrecords := completeCommit_records s
  dsimp only at hstand henter hrecords
  generalize completeCommit s = t at *
  refine ⟨t, hexec, h.store, h.tap, h.clock, h.latches, h.bus, h.arbiter, h.pending, h.powerOnHeld, h.externalHeld, h.lamps, h.detectors,
    h.parts, ?_, h.signs, fun hp => ?_, fun g => (h.callBits g).1, fun g hg => ⟨(h.callBits g).2.1 hg, hout g hg⟩,
    fun g => (h.callBits g).2.2, fun hm => hstand ?_, fun h1 h2 => henter ⟨h1, h2⟩, fun hq => ?_⟩
  · rw [h.link]; exact commitLink_eq s
  · rw [h.link, commitLink_poll, hp]; rfl
  · rintro ⟨h1, h2⟩
    rcases hm with hm | hm
    · exact hm h1
    · rw [hm] at h2; exact absurd h2 (by simp)
  · obtain ⟨h1, h2, h3, h4⟩ := hrecords hq
    refine ⟨h1, h2, fun _ => ?_, h4⟩
    rw [h3, countRecords_eq h]
    congr 1
    refine if_ctx_congr Iff.rfl (fun hacts => orderRecords_commit h hacts.1) fun _ => rfl

end Sys2Proof.Machine

/-! PROOFS. Validation (R169): each condition's search finds the least index that violates it. -/

namespace Sys2Proof.Machine

open Sys2Proof

/-! ### Searches for the least offender -/

/-- `v` is the least number that `bad` holds of, if any. -/
def IsLeast (v : Option Nat) (bad : Nat → Prop) : Prop :=
  match v with
  | none => ∀ k, ¬bad k
  | some k => bad k ∧ ∀ k', k' < k → ¬bad k'

theorem IsLeast.none_iff {v : Option Nat} {bad : Nat → Prop} (h : IsLeast v bad) : v = none ↔ ∀ k, ¬bad k := by
  rcases v with _ | k
  · exact ⟨fun _ => h, fun _ => rfl⟩
  · exact ⟨fun e => (nomatch e), fun hn => absurd h.1 (hn k)⟩

theorem IsLeast.some_iff {v : Option Nat} {bad : Nat → Prop} (h : IsLeast v bad) (k : Nat) :
    v = some k ↔ bad k ∧ ∀ k', k' < k → ¬bad k' := by
  rcases v with _ | i
  · exact ⟨fun e => (nomatch e), fun hk => absurd hk.1 (h k)⟩
  · refine ⟨fun e => Option.some.inj e ▸ h, fun ⟨h1, h2⟩ => congrArg some ?_⟩
    rcases Nat.lt_trichotomy i k with hlt | heq | hgt
    · exact absurd h.1 (h2 i hlt)
    · exact heq
    · exact absurd h1 (h.2 k hgt)

theorem IsLeast.congr {v : Option Nat} {bad bad' : Nat → Prop} (h : IsLeast v bad) (he : ∀ k, bad k ↔ bad' k) : IsLeast v bad' :=
  (funext fun k => propext (he k) : bad = bad') ▸ h

/-- What is below a member of an ascending range stands before it. -/
theorem mem_front {n : Nat} {a : Fin n} {front back : List (Fin n)} (h : List.finRange n = front ++ a :: back) {i : Fin n} (hi : i < a) :
    i ∈ front := by
  have hs : (front ++ a :: back).Pairwise (· < ·) := h ▸ List.pairwise_lt_finRange n
  have hm : i ∈ front ++ a :: back := h ▸ List.mem_finRange i
  rcases List.mem_append.1 hm with hm | hm
  · exact hm
  · rcases List.mem_cons.1 hm with rfl | hm
    · exact absurd hi (lt_irrefl i)
    · exact absurd hi (lt_asymm ((List.pairwise_cons.1 (List.pairwise_append.1 hs).2.1).1 i hm))

/-- The first member of a range that a test holds of is the least. -/
theorem find?_finRange_isLeast {n : Nat} (p : Fin n → Bool) :
    IsLeast (((List.finRange n).find? p).map (·.val)) fun k => ∃ i : Fin n, k = i.val ∧ p i = true := by
  rcases h : (List.finRange n).find? p with _ | a
  · rintro k ⟨i, -, hi⟩
    exact absurd hi (by simpa using List.find?_eq_none.1 h i (List.mem_finRange i))
  · obtain ⟨ha, front, back, hl, hf⟩ := List.find?_eq_some_iff_append.1 h
    refine ⟨⟨a, rfl, ha⟩, ?_⟩
    rintro k hk ⟨i, rfl, hi⟩
    have := hf i (mem_front hl hk)
    simp [hi] at this

/-- The first pair in ascending order is the least. -/
theorem leastPair_isLeast (bad : GroupNo → GroupNo → Bool) :
    IsLeast (leastPair bad) fun k => ∃ j i : GroupNo, k = j.val * 32 + i.val ∧ bad j i = true := by
  rcases h : leastPair bad with _ | k
  · rintro k ⟨j, i, -, hb⟩
    rw [(leastPair_none bad).1 h j i] at hb
    exact absurd hb (by simp)
  · obtain ⟨front, j, back, hl, hj, hf⟩ := List.findSome?_eq_some_iff.1 h
    obtain ⟨i, hi, rfl⟩ := Option.map_eq_some_iff.1 hj
    obtain ⟨hb, front', back', hl', hf'⟩ := List.find?_eq_some_iff_append.1 hi
    refine ⟨⟨j, i, rfl, hb⟩, ?_⟩
    rintro _ hlt ⟨j', i', rfl, hb'⟩
    by_cases hjj : j' < j
    · have hn := hf j' (mem_front hl hjj)
      rw [Option.map_eq_none_iff, List.find?_eq_none] at hn
      exact hn i' (List.mem_finRange i') hb'
    · have hjj' : ¬j'.val < j.val := hjj
      have he : j' = j := Fin.ext (by omega)
      subst he
      have hn := hf' i' (mem_front hl' (by omega))
      simp [hb'] at hn

/-! ### The conditions -/

variable (t : Tables)

theorem v01_isLeast : IsLeast (v01 t) (Violates t 1) := by
  unfold v01 inRange
  split
  · rename_i h
    simp only [Bool.and_eq_true, decide_eq_true_iff] at h
    exact fun k hk => hk.2 h
  · rename_i h
    simp only [Bool.and_eq_true, decide_eq_true_iff] at h
    exact ⟨⟨rfl, h⟩, fun k' hk => absurd hk (Nat.not_lt_zero k')⟩

/-- A record is legal exactly where it lies in the column of its kind (R3). -/
theorem legal_iff (r : GroupRecord) : r.legal = false ↔ illegalRecord r := by
  unfold illegalRecord GroupRecord.legal inRange
  by_cases h0 : r.kind = 0
  · simp [h0]; omega
  · by_cases h1 : r.kind = 1
    · simp [h1]; tauto
    · by_cases h2 : r.kind = 2
      · simp [h2]; tauto
      · rw [if_neg h0, if_neg h1, if_neg h2]
        refine ⟨fun _ ⟨_, _, h⟩ => ?_, fun _ => rfl⟩
        rcases h with h | h | h
        · exact h0 h.1
        · exact h1 h.1
        · exact h2 h.1

theorem v02_isLeast : IsLeast (v02 t) (Violates t 2) :=
  (find?_finRange_isLeast _).congr fun k => exists_congr fun i => and_congr_right fun _ => by
    rw [Bool.and_eq_true, Bool.not_eq_true', legal_iff, Tables.has, decide_eq_true_iff]

theorem v03_isLeast : IsLeast (v03 t) (Violates t 3) :=
  (find?_finRange_isLeast _).congr fun k => exists_congr fun i => and_congr_right fun _ => by
    rw [Bool.and_eq_true, Tables.has, decide_eq_true_iff]

theorem v04_isLeast : IsLeast (v04 t) (Violates t 4) :=
  (leastPair_isLeast _).congr fun k => exists_congr fun j => exists_congr fun i => and_congr_right fun _ => by
    simp only [Bool.and_eq_true, decide_eq_true_iff, Tables.has, bne_iff_ne, and_assoc]
    refine and_congr_right fun hlt => ⟨fun ⟨_, h2, h3⟩ => ⟨h2, h3⟩, fun ⟨h2, h3⟩ => ⟨?_, h2, h3⟩⟩
    exact Nat.lt_trans hlt h2

theorem v05_isLeast : IsLeast (v05 t) (Violates t 5) :=
  (leastPair_isLeast _).congr fun k => exists_congr fun j => exists_congr fun i => and_congr_right fun _ => by
    simp only [Bool.and_eq_true, decide_eq_true_iff, Tables.has, and_assoc]

theorem v06_isLeast : IsLeast (v06 t) (Violates t 6) :=
  (find?_finRange_isLeast _).congr fun k => exists_congr fun line => and_congr_right fun _ => by
    simp only [List.any_eq_true, List.mem_finRange, true_and, Bool.and_eq_true, Bool.not_eq_true', Tables.has, decide_eq_false_iff_not,
      Nat.not_lt]
    exact exists_congr fun i => and_comm

theorem usedInStaging_iff (r : SignRecord) : r.usedInStaging = true ↔ r.address ≠ 0 := by simp [SignRecord.usedInStaging]

theorem v07_isLeast : IsLeast (v07 t) (Violates t 7) :=
  (find?_finRange_isLeast _).congr fun k => exists_congr fun r => and_congr_right fun _ => by
    simp only [Bool.and_eq_true, Bool.or_eq_true, usedInStaging_iff, decide_eq_true_iff, List.any_eq_true, List.mem_finRange, true_and,
      beq_iff_eq, and_assoc]

theorem v09_isLeast : IsLeast (v09 t) (Violates t 9) :=
  (find?_finRange_isLeast _).congr fun k => exists_congr fun r => and_congr_right fun _ => by
    simp only [Bool.and_eq_true, usedInStaging_iff]
    refine and_congr_right fun _ => ?_
    split
    · rename_i h
      exact ⟨fun hr => .inr ⟨h, hr⟩, fun hr => hr.elim (fun k => absurd h k.1) (·.2)⟩
    · rename_i h
      rw [decide_eq_true_iff]
      exact ⟨fun hr => .inl ⟨h, hr⟩, fun hr => hr.elim (·.2) fun k => absurd k.1 h⟩

theorem not_inRange_iff (lo hi x : Nat) : (!inRange lo hi x) = true ↔ ¬(lo ≤ x ∧ x ≤ hi) := by
  rw [Bool.not_eq_true', ← Bool.not_eq_true]
  simp [inRange]

/-- A test taken before a search, whose index is below all that the search can find. -/
theorem IsLeast.before {p : Prop} [Decidable p] {i : Nat} {v : Option Nat} {bad : Nat → Prop}
    (h : IsLeast v bad ∧ ∀ k, bad k → i + 1 ≤ k) :
    IsLeast (if p then some i else v) (fun k => (k = i ∧ p) ∨ bad k) ∧ ∀ k, (k = i ∧ p) ∨ bad k → i ≤ k := by
  obtain ⟨h, hi⟩ := h
  refine ⟨?_, fun k hk => hk.elim (fun e => Nat.le_of_eq e.1.symm) fun hb => Nat.le_of_succ_le (hi k hb)⟩
  split
  · rename_i hp
    refine ⟨.inl ⟨rfl, hp⟩, fun k hk hb => ?_⟩
    rcases hb with ⟨rfl, -⟩ | hb
    · exact Nat.lt_irrefl k hk
    · exact Nat.lt_irrefl k (Nat.lt_trans hk (hi k hb))
  · rename_i hp
    exact h.congr fun k => ⟨.inr, fun hk => hk.resolve_left fun e => hp e.2⟩

theorem v10_isLeast : IsLeast (v10 t) (Violates t 10) := by
  have h0 : IsLeast none (fun _ => False) ∧ ∀ k, False → 6 + 1 ≤ k := ⟨fun _ => id, fun _ => False.elim⟩
  have h6 := IsLeast.before (p := ¬(0 ≤ t.timing.refusalLimit.toNat ∧ t.timing.refusalLimit.toNat ≤ 1023)) h0
  have h5 := IsLeast.before (i := 5) (p := ¬(2 ≤ t.timing.provingDelay.toNat ∧ t.timing.provingDelay.toNat ≤ 10)) h6
  have h4 := IsLeast.before (i := 4) (p := ¬(5 ≤ t.timing.liveness.toNat ∧ t.timing.liveness.toNat ≤ 100)) h5
  have h3 := IsLeast.before (i := 3) (p := ¬(20 ≤ t.timing.flashEntry.toNat ∧ t.timing.flashEntry.toNat ≤ 100)) h4
  have h2 := IsLeast.before (i := 2) (p := ¬(20 ≤ t.timing.allStop.toNat ∧ t.timing.allStop.toNat ≤ 100)) h3
  have h1 := IsLeast.before (i := 1) (p := ¬(30 ≤ t.timing.startFlash.toNat ∧ t.timing.startFlash.toNat ≤ 600)) h2
  unfold v10
  simp only [not_inRange_iff]
  exact h1.1.congr fun k => by simp only [or_false]; rfl

/-! ### Spans -/

/-- A sign record's span is one that it may have (R130). -/
def SignRecord.spanOk (x : SignRecord) : Prop := (1 ≤ x.span.toNat ∧ x.span.toNat ≤ 16) ∧ ¬127 < x.start.toNat ∧ ¬128 < x.start.toNat + x.span.toNat

/-- Spans that are not empty overlap exactly where they share a channel. -/
theorem overlaps_iff {x y : SignRecord} (hx : 1 ≤ x.span.toNat) (hy : 1 ≤ y.span.toNat) :
    y.overlaps x = true ↔ ∃ c, x.covers c = true ∧ y.covers c = true := by
  simp only [SignRecord.overlaps, SignRecord.covers, Bool.and_eq_true, decide_eq_true_iff]
  refine ⟨fun h => ⟨max x.start.toNat y.start.toNat, by omega⟩, fun ⟨c, h⟩ => by omega⟩

/-- The test of V08 for a record. -/
def v08Bad (r : SignNo) : Bool :=
  (t.signs.get r).usedInStaging && (!inRange 1 16 (t.signs.get r).span.toNat || !inRange 0 127 (t.signs.get r).start.toNat ||
    decide (128 < (t.signs.get r).start.toNat + (t.signs.get r).span.toNat) ||
    (List.finRange 16).any fun q => decide (q < r) && (t.signs.get q).usedInStaging && (t.signs.get q).overlaps (t.signs.get r))

/-- Record `r` violates V08 (R169). -/
def spanViolated (r : SignNo) : Prop := (t.signs.get r).address ≠ 0 ∧
  (¬(1 ≤ (t.signs.get r).span.toNat ∧ (t.signs.get r).span.toNat ≤ 16) ∨ 127 < (t.signs.get r).start.toNat ∨
    128 < (t.signs.get r).start.toNat + (t.signs.get r).span.toNat ∨
    ∃ q : SignNo, q < r ∧ (t.signs.get q).address ≠ 0 ∧ ∃ c, (t.signs.get r).covers c = true ∧ (t.signs.get q).covers c = true)

/-- Where every lower used record's span is one it may have, the test finds what violates V08. -/
theorem v08Bad_iff {r : SignNo} (h : ∀ q, q < r → (t.signs.get q).address ≠ 0 → (t.signs.get q).spanOk) :
    v08Bad t r = true ↔ spanViolated t r := by
  unfold v08Bad spanViolated
  simp only [Bool.and_eq_true, Bool.or_eq_true, usedInStaging_iff, not_inRange_iff, decide_eq_true_iff, List.any_eq_true,
    List.mem_finRange, true_and, or_assoc, and_assoc]
  refine and_congr_right fun _ => ?_
  by_cases hs : 1 ≤ (t.signs.get r).span.toNat ∧ (t.signs.get r).span.toNat ≤ 16
  · refine or_congr Iff.rfl (or_congr (by omega) (or_congr Iff.rfl ?_))
    exact exists_congr fun q => and_congr_right fun hq => and_congr_right fun hu => overlaps_iff hs.1 (h q hq hu).1.1
  · simp only [hs, not_false_eq_true, true_or]

theorem spanOk_of_not_bad {r : SignNo} (h : ¬v08Bad t r = true) (hu : (t.signs.get r).address ≠ 0) : (t.signs.get r).spanOk := by
  unfold v08Bad at h
  simp only [Bool.and_eq_true, Bool.or_eq_true, usedInStaging_iff, not_inRange_iff, decide_eq_true_iff, hu, ne_eq, not_false_eq_true,
    true_and, not_or] at h
  obtain ⟨⟨⟨h1, h2⟩, h3⟩, -⟩ := h
  exact ⟨not_not.1 h1, by omega, h3⟩

theorem spanOk_of_not_violated {r : SignNo} (h : ¬spanViolated t r) (hu : (t.signs.get r).address ≠ 0) : (t.signs.get r).spanOk := by
  unfold spanViolated at h
  simp only [hu, ne_eq, not_false_eq_true, true_and, not_or] at h
  obtain ⟨h1, h2, h3, -⟩ := h
  exact ⟨not_not.1 h1, h2, h3⟩

theorem v08_isLeast : IsLeast (v08 t) (Violates t 8) := by
  have h : IsLeast (v08 t) fun k => ∃ r : SignNo, k = r.val ∧ v08Bad t r = true := find?_finRange_isLeast (v08Bad t)
  rcases hv : v08 t with _ | k <;> rw [hv] at h
  · rintro k ⟨r, rfl, hr⟩
    have hnot : ∀ q, ¬v08Bad t q = true := fun q hq => h q.val ⟨q, rfl, hq⟩
    exact hnot r ((v08Bad_iff t fun q _ hu => spanOk_of_not_bad t (hnot q) hu).2 hr)
  · obtain ⟨⟨r, rfl, hr⟩, hleast⟩ := h
    have hnot : ∀ q, q < r → ¬v08Bad t q = true := fun q hlt hq => hleast q.val hlt ⟨q, rfl, hq⟩
    refine ⟨⟨r, rfl, (v08Bad_iff t fun q hlt hu => spanOk_of_not_bad t (hnot q hlt) hu).1 hr⟩, ?_⟩
    rintro _ hlt ⟨q, rfl, hq⟩
    exact hnot q hlt ((v08Bad_iff t fun p hp hu => spanOk_of_not_bad t (hnot p (Fin.lt_trans hp hlt)) hu).2 hq)

/-! ### The first violation -/

/-- `r` is the first violation of the conditions from `c` on, in the fixed order, at its lowest index (R169). -/
def FirstFrom (c : Nat) (r : Option (Nat × Section × Nat)) : Prop :=
  ∀ code sec k, r = some (code, sec, k) ↔ (c ≤ code ∧ code ≤ 10) ∧ sec = violationSection code ∧
    (Violates t code k ∧ ∀ k', k' < k → ¬Violates t code k') ∧ ∀ code', c ≤ code' → code' < code → ∀ k', ¬Violates t code' k'

theorem FirstFrom.nil : FirstFrom t 11 none := fun code sec k =>
  ⟨fun h => (nomatch h), fun ⟨⟨h1, h2⟩, _⟩ => absurd (Nat.le_trans h1 h2) (by decide)⟩

/-- A condition taken before the others. -/
theorem FirstFrom.or {c : Nat} {sec : Section} {v : Option Nat} {r : Option (Nat × Section × Nat)} (h : FirstFrom t (c + 1) r)
    (hv : IsLeast v (Violates t c)) (hc : c ≤ 10) (hs : sec = violationSection c) : FirstFrom t c ((violation c sec v).or r) := by
  intro code sec' k
  rcases v with _ | i
  · rw [show (violation c sec none).or r = r from rfl, h code sec' k]
    refine ⟨fun ⟨h1, h2, h3, h4⟩ => ⟨⟨by omega, h1.2⟩, h2, h3, fun c' hc' hlt => ?_⟩, fun ⟨h1, h2, h3, h4⟩ =>
      ⟨⟨?_, h1.2⟩, h2, h3, fun c' hc' => h4 c' (by omega)⟩⟩
    · rcases Nat.eq_or_lt_of_le hc' with rfl | hc'
      · exact hv
      · exact h4 c' hc' hlt
    · rcases Nat.eq_or_lt_of_le h1.1 with rfl | hlt
      · exact absurd h3.1 (hv k)
      · exact hlt
  · rw [show (violation c sec (some i)).or r = some (c, sec, i) from rfl]
    refine ⟨fun e => ?_, fun ⟨h1, h2, h3, h4⟩ => ?_⟩
    · obtain ⟨rfl, rfl, rfl⟩ : c = code ∧ sec = sec' ∧ i = k := by simpa using e
      exact ⟨⟨Nat.le_refl c, hc⟩, hs, hv, fun c' h1 h2 => absurd h2 (by omega)⟩
    · rcases Nat.eq_or_lt_of_le h1.1 with rfl | hlt
      · have hk : some i = some k := (hv.some_iff k).2 h3
        rw [h2, ← hs, Option.some.inj hk]
      · exact absurd hv.1 (h4 c (Nat.le_refl c) hlt i)

/-- The violation reported is the first violated condition in the order V01 to V10, at its lowest index (R169). -/
theorem firstViolation_firstFrom : FirstFrom t 1 t.firstViolation := by
  have h := ((((((((((FirstFrom.nil t).or t (v10_isLeast t) (by decide) rfl).or t (v09_isLeast t) (by decide) rfl).or t
    (v08_isLeast t) (by decide) rfl).or t (v07_isLeast t) (by decide) rfl).or t (v06_isLeast t) (by decide) rfl).or t
    (v05_isLeast t) (by decide) rfl).or t (v04_isLeast t) (by decide) rfl).or t (v03_isLeast t) (by decide) rfl).or t
    (v02_isLeast t) (by decide) rfl).or t (v01_isLeast t) (by decide) rfl
  rwa [Option.or_none] at h

end Sys2Proof.Machine

/-! PROOFS. Valid tables meet every condition (R3, R169). -/

namespace Sys2Proof.Machine

open Sys2Proof

section

variable (t : Tables)

/-- No condition on the group count is violated. -/
theorem no_v01 : (∀ k, ¬Violates t 1 k) ↔ 1 ≤ t.timing.groupCount.toNat ∧ t.timing.groupCount.toNat ≤ 32 :=
  ⟨fun h => not_not.1 fun hn => h 0 ⟨rfl, hn⟩, fun h _ hk => hk.2 h⟩

theorem no_v02 : (∀ k, ¬Violates t 2 k) ↔ ∀ i : GroupNo, i.val < t.timing.groupCount.toNat → ¬illegalRecord (t.groups.get i) :=
  ⟨fun h i hi hr => h i.val ⟨i, rfl, hi, hr⟩, fun h _ ⟨i, _, hi, hr⟩ => h i hi hr⟩

theorem no_v03 : (∀ k, ¬Violates t 3 k) ↔ ∀ i : GroupNo, i.val < t.timing.groupCount.toNat → t.conflictBit i i = false :=
  ⟨fun h i hi => Bool.eq_false_iff.2 fun hc => h i.val ⟨i, rfl, hi, hc⟩, fun h _ ⟨i, _, hi, hc⟩ => by rw [h i hi] at hc; cases hc⟩

theorem no_v04 : (∀ k, ¬Violates t 4 k) ↔ ∀ j i : GroupNo, j.val < t.timing.groupCount.toNat → i.val < t.timing.groupCount.toNat →
    t.conflictBit j i = t.conflictBit i j := by
  refine ⟨fun h j i hj hi => ?_, fun h _ ⟨j, i, _, hlt, hi, hn⟩ => hn (h j i (Nat.lt_trans hlt hi) hi)⟩
  rcases lt_trichotomy j i with hlt | rfl | hgt
  · exact not_not.1 fun hn => h _ ⟨j, i, rfl, hlt, hi, hn⟩
  · rfl
  · exact (not_not.1 fun hn => h _ ⟨i, j, rfl, hgt, hj, hn⟩).symm

theorem no_v05 : (∀ k, ¬Violates t 5 k) ↔ ∀ j i : GroupNo, j.val < t.timing.groupCount.toNat → i.val < t.timing.groupCount.toNat →
    t.conflictBit j i = true → (t.groups.get j).clearingTime.toNat ≤ t.intergreenOf j i :=
  ⟨fun h j i hj hi hc => Nat.not_lt.1 fun hlt => h _ ⟨j, i, rfl, hj, hi, hc, hlt⟩,
    fun h _ ⟨j, i, _, hj, hi, hc, hlt⟩ => Nat.not_lt.2 (h j i hj hi hc) hlt⟩

theorem no_v06 : (∀ k, ¬Violates t 6 k) ↔ ∀ i : GroupNo, t.timing.groupCount.toNat ≤ i.val →
    (t.holds.get 0).getLsbD i.val = false ∧ (t.holds.get 1).getLsbD i.val = false := by
  refine ⟨fun h i hi => ⟨?_, ?_⟩, fun h _ ⟨line, _, i, hi, hb⟩ => ?_⟩
  · exact Bool.eq_false_iff.2 fun hb => h 0 ⟨0, rfl, i, hi, hb⟩
  · exact Bool.eq_false_iff.2 fun hb => h 1 ⟨1, rfl, i, hi, hb⟩
  · have hl : line = 0 ∨ line = 1 := by omega
    rcases hl with rfl | rfl
    · exact absurd ((h i hi).1.symm.trans hb) (by simp)
    · exact absurd ((h i hi).2.symm.trans hb) (by simp)

/-- No condition on the sign records is violated (V07 to V09). -/
theorem no_signs : ((∀ k, ¬Violates t 7 k) ∧ (∀ k, ¬Violates t 8 k) ∧ ∀ k, ¬Violates t 9 k) ↔
    ∀ r : SignNo, (t.signs.get r).address ≠ 0 →
      let y := t.signs.get r
      y.address.toNat ≤ 16 ∧ 1 ≤ y.span.toNat ∧ y.span.toNat ≤ 16 ∧ y.start.toNat + y.span.toNat ≤ 128 ∧
      (y.bound = 0xFF → y.required = false) ∧ (y.bound ≠ 0xFF → y.bound.toNat < t.timing.groupCount.toNat) ∧
      ∀ q : SignNo, (t.signs.get q).address ≠ 0 → q ≠ r →
        (t.signs.get q).address ≠ y.address ∧ ¬∃ c, y.covers c = true ∧ (t.signs.get q).covers c = true := by
  constructor
  · rintro ⟨h7, h8, h9⟩ r hr y
    have ok := spanOk_of_not_violated t (r := r) (fun h => h8 _ ⟨r, rfl, h⟩) hr
    refine ⟨Nat.not_lt.1 fun h => h7 _ ⟨r, rfl, hr, .inl h⟩, ok.1.1, ok.1.2, Nat.not_lt.1 ok.2.2,
      fun hb => Bool.eq_false_iff.2 fun hq => h9 _ ⟨r, rfl, hr, .inr ⟨hb, hq⟩⟩,
      fun hb => Nat.not_le.1 fun hn => h9 _ ⟨r, rfl, hr, .inl ⟨hb, hn⟩⟩, fun q hq hne => ?_⟩
    rcases lt_or_gt_of_ne hne with hlt | hgt
    · exact ⟨fun he => h7 _ ⟨r, rfl, hr, .inr ⟨q, hlt, hq, he⟩⟩, fun hc => h8 _ ⟨r, rfl, hr, .inr (.inr (.inr ⟨q, hlt, hq, hc⟩))⟩⟩
    · exact ⟨fun he => h7 _ ⟨q, rfl, hq, .inr ⟨r, hgt, hr, he.symm⟩⟩, fun ⟨c, h1, h2⟩ =>
        h8 _ ⟨q, rfl, hq, .inr (.inr (.inr ⟨r, hgt, hr, c, h2, h1⟩))⟩⟩
  · intro h
    refine ⟨?_, ?_, ?_⟩
    · rintro k ⟨r, -, hr, hv⟩
      obtain ⟨h1, -, -, -, -, -, h7⟩ := h r hr
      rcases hv with hv | ⟨q, hlt, hq, he⟩
      · exact absurd hv (Nat.not_lt.2 h1)
      · exact (h7 q hq hlt.ne).1 he
    · rintro k ⟨r, -, hr, hv⟩
      obtain ⟨-, h2, h3, h4, -, -, h7⟩ := h r hr
      rcases hv with hv | hv | hv | ⟨q, hlt, hq, hc⟩
      · exact hv ⟨h2, h3⟩
      · omega
      · omega
      · exact (h7 q hq hlt.ne).2 hc
    · rintro k ⟨r, -, hr, hv⟩
      obtain ⟨-, -, -, -, h5, h6, -⟩ := h r hr
      rcases hv with ⟨hb, hn⟩ | ⟨hb, hq⟩
      · exact absurd hn (Nat.not_le.2 (h6 hb))
      · rw [h5 hb] at hq; cases hq

/-- No TIMING range is violated. -/
theorem no_v10 : (∀ k, ¬Violates t 10 k) ↔
    30 ≤ t.timing.startFlash.toNat ∧ t.timing.startFlash.toNat ≤ 600 ∧ 20 ≤ t.timing.allStop.toNat ∧ t.timing.allStop.toNat ≤ 100 ∧
      20 ≤ t.timing.flashEntry.toNat ∧ t.timing.flashEntry.toNat ≤ 100 ∧ 5 ≤ t.timing.liveness.toNat ∧ t.timing.liveness.toNat ≤ 100 ∧
      2 ≤ t.timing.provingDelay.toNat ∧ t.timing.provingDelay.toNat ≤ 10 ∧ t.timing.refusalLimit.toNat ≤ 1023 := by
  refine ⟨fun h => ?_, fun ⟨h1, h2, h3, h4, h5, h6, h7, h8, h9, h10, h11⟩ k hk => ?_⟩
  · have k1 := not_not.1 fun hn => h 1 (.inl ⟨rfl, hn⟩)
    have k2 := not_not.1 fun hn => h 2 (.inr (.inl ⟨rfl, hn⟩))
    have k3 := not_not.1 fun hn => h 3 (.inr (.inr (.inl ⟨rfl, hn⟩)))
    have k4 := not_not.1 fun hn => h 4 (.inr (.inr (.inr (.inl ⟨rfl, hn⟩))))
    have k5 := not_not.1 fun hn => h 5 (.inr (.inr (.inr (.inr (.inl ⟨rfl, hn⟩)))))
    have k6 := not_not.1 fun hn => h 6 (.inr (.inr (.inr (.inr (.inr ⟨rfl, hn⟩)))))
    exact ⟨k1.1, k1.2, k2.1, k2.2, k3.1, k3.2, k4.1, k4.2, k5.1, k5.2, k6.2⟩
  · rcases hk with ⟨-, hn⟩ | ⟨-, hn⟩ | ⟨-, hn⟩ | ⟨-, hn⟩ | ⟨-, hn⟩ | ⟨-, hn⟩
    · exact hn ⟨h1, h2⟩
    · exact hn ⟨h3, h4⟩
    · exact hn ⟨h5, h6⟩
    · exact hn ⟨h7, h8⟩
    · exact hn ⟨h9, h10⟩
    · exact hn ⟨Nat.zero_le _, h11⟩

end

/-- Settles O55: each condition's search is exact, and the order of the ten is the order of the violations. -/
theorem validTablesMeetTheConditions : Obligations.ValidTablesMeetTheConditions := by
  unfold Obligations.ValidTablesMeetTheConditions
  intro t g x
  refine ⟨?_, fun code sec k => ?_⟩
  · rw [firstViolation_none, (v01_isLeast t).none_iff, (v02_isLeast t).none_iff, (v03_isLeast t).none_iff, (v04_isLeast t).none_iff,
      (v05_isLeast t).none_iff, (v06_isLeast t).none_iff, (v07_isLeast t).none_iff, (v08_isLeast t).none_iff, (v09_isLeast t).none_iff,
      (v10_isLeast t).none_iff, no_v01, no_v02, no_v03, no_v04, no_v05, no_v06, no_v10]
    constructor
    · rintro ⟨h1, h2, h3, h4, h5, h6, h7, h8, h9, h10⟩
      exact ⟨h1, h10, fun j i hj hi => ⟨h3 j hj, h4 j i hj hi, h5 j i hj hi⟩, fun i hi => not_not.1 (h2 i hi), h6,
        (no_signs t).1 ⟨h7, h8, h9⟩⟩
    · rintro ⟨h1, h10, hm, h2, h6, hs⟩
      obtain ⟨h7, h8, h9⟩ := (no_signs t).2 hs
      exact ⟨h1, fun i hi => not_not.2 (h2 i hi), fun i hi => (hm i i hi hi).1, fun j i hj hi => (hm j i hj hi).2.1,
        fun j i hj hi => (hm j i hj hi).2.2, h6, h7, h8, h9, h10⟩
  · rw [firstViolation_firstFrom t code sec k]
    constructor
    · rintro ⟨h1, h2, ⟨h3, h4⟩, h5⟩
      refine ⟨h1, h2, h3, h4, fun c hc => ?_⟩
      rcases Nat.eq_zero_or_pos c with rfl | hp
      · exact fun k' => id
      · exact h5 c hp hc
    · rintro ⟨h1, h2, h3, h4, h5⟩
      exact ⟨h1, h2, ⟨h3, h4⟩, fun c _ hc => h5 c hc⟩

end Sys2Proof.Machine

/-! PROOFS. The clock, the lamp lines and the end of a reset (R1, R2, R6, R22, R162, R167). -/

namespace Sys2Proof.Machine

open Sys2Proof

theorem lineOn_of_off {s : State} {g : GroupNo} {line : Line} (h : s.drive g line = .off) : s.lineOn g line = false := by
  rw [State.lineOn, h]

theorem lineOn_of_steady {s : State} {g : GroupNo} {line : Line} (h : s.drive g line = .steady) : s.lineOn g line = true := by
  rw [State.lineOn, h]

/-- A flashing line follows the flasher (R2). -/
theorem lineOn_of_flashing {s : State} {g : GroupNo} {line : Line} (h : s.drive g line = .flashing) : s.lineOn g line = s.flasher := by
  rw [State.lineOn, h]

theorem drive_none {s : State} {g : GroupNo} (h : s.held = true ∨ s.configured g = false) (line : Line) : s.drive g line = .off :=
  if_pos (by rcases h with h | h <;> simp [h])

theorem drive_configured {s : State} {g : GroupNo} (h : s.held = false) (hc : s.configured g = true) (line : Line) :
    s.drive g line = lineDrive (s.record g) (s.group g).state line := if_neg (by simp [h, hc])

/-- Settles O7: the table is read line by line. -/
theorem lampLinesFollowTheGroupState : Obligations.LampLinesFollowTheGroupState := by
  unfold Obligations.LampLinesFollowTheGroupState
  intro s g
  refine ⟨drive_none, fun h hc => ?_, fun line => ⟨lineOn_of_off, lineOn_of_steady, lineOn_of_flashing⟩⟩
  rw [drive_configured h hc, drive_configured h hc, drive_configured h hc]
  rcases (s.group g).state
  case clearing => unfold lineDrive; dsimp only; split <;> rfl
  all_goals rfl

/-- Settles O5: the clock's command is the advance of the clock outside a reset. -/
theorem decisecondEventAdvancesTheClock : Obligations.DecisecondEventAdvancesTheClock := by
  unfold Obligations.DecisecondEventAdvancesTheClock
  intro s
  refine ⟨fun h => ?_, fun h => ?_⟩
  · show Host.Outcome.next (if s.held then s else advanceClock s) = _
    rw [h]; rfl
  · show Host.Outcome.next (if s.held then s else advanceClock s) = _
    rw [h]; rfl

/-- Settles O6: the flasher's half-periods, at the two ends of the clock. -/
theorem flasherDrivesTheFlashingLines : Obligations.FlasherDrivesTheFlashingLines := by
  unfold Obligations.FlasherDrivesTheFlashingLines
  intro s
  refine ⟨decide_eq_true_iff, fun h => ?_, fun h => ⟨?_, ?_⟩, fun g line => lineOn_of_flashing⟩ <;>
    simp [State.flasher, h]

/-! ### The end of a reset -/

/-- The end of the only reset held takes the device out of reset (R22, R162). -/
theorem endReset_leaves {kind : ResetKind} {s : State} (hp : s.powerOnHeld = decide (kind = .powerOn))
    (he : s.externalHeld = decide (kind = .external)) (straps : BitVec 4) (closed : Bool) :
    endReset kind straps closed s = leaveReset straps (clearLocks kind closed s.store.nv) s := by
  cases kind <;> simp [endReset, hp, he]

/-- Settles O4: the end of the only reset leaves it; the end of one of two leaves the other held. -/
theorem resetEndPlacesTheDevice : Obligations.ResetEndPlacesTheDevice := by
  unfold Obligations.ResetEndPlacesTheDevice
  intro kind straps closed s nv
  have hnv : clearLocks kind closed s.store.nv = nv := rfl
  refine ⟨fun hp he => ?_, fun hp he => ?_⟩
  · show Host.Outcome.next (endReset kind straps closed s) = _
    rw [endReset_leaves hp he, hnv]
    rfl
  · show Host.Outcome.next (endReset kind straps closed s) = _
    cases kind <;> simp [endReset, hp, he] <;> exact hnv

end Sys2Proof.Machine

/-! PROOFS. The invariants at the end of a reset (R22, R68, R162). -/

namespace Sys2Proof.Machine

open Sys2Proof

/-- What the ranges read of a state whose volatile contents are set back: groups in UNLIT or FLASHING with all at 0, and every block at its
reset values (R22). -/
structure SetBack (s : State) : Prop where
  groups : ∀ g, s.group g = Group.unconfigured ∨ s.group g = { Group.unconfigured with state := .flashing }
  arbiter : s.arbiter = State.reset.arbiter
  mode : s.mode = State.reset.mode
  page : s.page = State.reset.page
  lamps : s.lamps = State.reset.lamps
  detectors : s.detectors = State.reset.detectors
  link : s.link = State.reset.link
  queue : ∃ n, s.queue = { State.reset.queue with choices := n }

/-- A state set back, with the groups placed by the tables and no commit in progress (R22, R162). -/
structure AtReset (s : State) : Prop where
  setBack : SetBack s
  placed : ∀ g, s.group g = groupAtReset s.store.nv g
  busy : s.store.busy = false

theorem configured_iff (s : State) (g : GroupNo) :
    s.configured g = true ↔ s.store.nv.valid = true ∧ g.val < s.store.nv.active.timing.groupCount.toNat := by
  unfold State.configured State.groupCount State.active
  rw [decide_eq_true_iff]
  rcases s.store.nv.valid with _ | _ <;> simp

theorem lampsInRange_atReset : lampsInRange LampMonitor.atReset := by
  refine ⟨Nat.zero_le _, Nat.zero_le _, fun j i => ?_, fun g => ⟨?_, ?_, ?_, ?_⟩⟩ <;> simp [LampMonitor.atReset, vector_get]

theorem groupAtReset_cases (nv : NonVolatile) (g : GroupNo) :
    groupAtReset nv g = Group.unconfigured ∨ groupAtReset nv g = { Group.unconfigured with state := .flashing } := by
  unfold groupAtReset
  split
  · exact .inr rfl
  · exact .inl rfl

section

variable {s : State} (h : SetBack s)
include h

theorem SetBack.intergreenInv : IntergreenInv s where
  clearing := fun g _ hg => by rcases h.groups g with e | e <;> rw [e] at hg <;> cases hg
  prepare := fun g _ hg => by rcases h.groups g with e | e <;> rw [e] at hg <;> cases hg
  approach := fun _ g _ hg => by rcases h.groups g with e | e <;> rw [e] at hg <;> cases hg

theorem SetBack.rangeInv (hc : countersInRange s.store.nv) : RangeInv s where
  groups := fun g => by rcases h.groups g with e | e <;> rw [e] <;> simp [groupInRange, Group.unconfigured]
  waits := fun g => by rw [h.arbiter]; right; simp [State.reset, vector_get]
  detectors := fun d => by
    have hd : s.detector d = Detector.atReset := by
      rw [State.detector, h.detectors]; simp [State.reset, vector_get]
    rw [hd]; simp [detectorInRange, Detector.atReset]
  select := by rw [h.detectors]; simp [State.reset]
  signs := fun r => by rw [h.link]; simp [State.reset, SignLink.atReset, vector_get, Sign.atReset]
  cursor := by rw [h.link]; simp [State.reset, SignLink.atReset]
  refusals := by rw [h.page]; simp [State.reset]
  counters := hc
  modeTimers := by rw [h.mode]; simp [State.reset, ModeControl.atReset, modeTimersInRange]
  liveness := by rw [h.page]; simp [State.reset]
  lamps := by rw [h.lamps]; exact lampsInRange_atReset

theorem SetBack.timersInRange : TimersInRange s where
  groups := fun g => by rcases h.groups g with e | e <;> rw [e] <;> simp [Group.unconfigured]
  mode := by rw [h.mode]; simp [State.reset, ModeControl.atReset]
  liveness := by rw [h.page]; simp [State.reset]

theorem SetBack.queueInv : QueueInv s.queue := by
  obtain ⟨n, hn⟩ := h.queue
  rw [hn]
  constructor <;> simp [State.reset]

end

section

variable {s : State} (h : AtReset s)
include h

theorem AtReset.group_configured {g : GroupNo} (hg : s.configured g = true) :
    s.group g = { Group.unconfigured with state := .flashing } := by
  rw [h.placed, groupAtReset, if_pos ((configured_iff s g).1 hg)]

theorem AtReset.group_unconfigured {g : GroupNo} (hg : s.configured g = false) : s.group g = Group.unconfigured := by
  rw [h.placed, groupAtReset, if_neg]
  rw [← configured_iff, hg]; simp

theorem AtReset.safetyInv (ht : s.store.nv.valid = true → s.active.firstViolation = none) : SafetyInv s where
  unconfigured := fun g => h.group_unconfigured
  states := fun g hg => by rw [h.group_configured hg, h.setBack.mode]; rfl
  exclusive := fun j i _ hj => by
    rcases h.setBack.groups j with e | e <;> rw [e] at hj <;> cases hj
  tables := ht
  configuredMode := fun hm => by rw [h.setBack.mode] at hm; cases hm
  commit := fun hb => by rw [h.busy] at hb; cases hb

end

theorem reset_group (g : GroupNo) : State.reset.group g = Group.unconfigured := by simp [State.group, State.reset, vector_get]

theorem setBack_reset : SetBack State.reset := ⟨fun g => .inl (reset_group g), rfl, rfl, rfl, rfl, rfl, rfl, 0, rfl⟩

theorem setBack_assertReset (kind : ResetKind) (s : State) : SetBack (assertReset kind s) :=
  ⟨fun g => .inl (reset_group g), rfl, rfl, rfl, rfl, rfl, rfl, s.queue.choices, rfl⟩

theorem leaveReset_group (straps : BitVec 4) (nv : NonVolatile) (s : State) (g : GroupNo) :
    (leaveReset straps nv s).group g = groupAtReset nv g := vector_get_ofFn (groupAtReset nv) g

theorem setBack_leaveReset (straps : BitVec 4) (nv : NonVolatile) (s : State) : SetBack (leaveReset straps nv s) :=
  ⟨fun g => leaveReset_group straps nv s g ▸ groupAtReset_cases nv g, rfl, rfl, rfl, rfl, rfl, rfl, s.queue.choices, rfl⟩

theorem atReset_reset : AtReset State.reset where
  setBack := setBack_reset
  placed := fun g => by rw [reset_group, groupAtReset, if_neg (by simp [State.reset, NonVolatile.factory])]
  busy := rfl

theorem atReset_leaveReset (straps : BitVec 4) (nv : NonVolatile) (s : State) : AtReset (leaveReset straps nv s) where
  setBack := setBack_leaveReset straps nv s
  placed := leaveReset_group straps nv s
  busy := rfl

/-- The clearing of the lock flags leaves the tables, their validity and the counters (R167). -/
theorem clearLocks_eq (kind : ResetKind) (closed : Bool) (nv : NonVolatile) :
    clearLocks kind closed nv = { nv with lockFlags := (clearLocks kind closed nv).lockFlags } := by
  unfold clearLocks; split <;> rfl

/-- Settles O56: both states are a state as a reset leaves it. -/
theorem resetMeetsTheInvariants : Obligations.ResetMeetsTheInvariants := by
  unfold Obligations.ResetMeetsTheInvariants
  refine ⟨⟨atReset_reset.safetyInv (by simp [State.reset, NonVolatile.factory]), setBack_reset.intergreenInv,
    setBack_reset.rangeInv (by simp [State.reset, NonVolatile.factory, countersInRange]), setBack_reset.timersInRange,
    setBack_reset.queueInv⟩, fun s kind straps closed ht hc hp he => ?_⟩
  have h := atReset_leaveReset straps (clearLocks kind closed s.store.nv) s
  have hnv : (leaveReset straps (clearLocks kind closed s.store.nv) s).store.nv = clearLocks kind closed s.store.nv := rfl
  refine ⟨leaveReset straps (clearLocks kind closed s.store.nv) s, ?_, rfl, h.safetyInv ?_, h.setBack.intergreenInv, h.setBack.rangeInv ?_,
    h.setBack.timersInRange, h.setBack.queueInv⟩
  · show Host.Outcome.next (endReset kind straps closed s) = _
    rw [endReset_leaves hp he]
  · unfold State.active
    rw [hnv, clearLocks_eq]; exact ht
  · rw [hnv, clearLocks_eq]; exact hc

end Sys2Proof.Machine

/-! PROOFS. What an operation keeps of the counted values, the queue's shape and the non-volatile contents, as one relation that composes; and
that every move of groups and every change of mode keeps it (R12, R47, R54, R149, R175). -/

namespace Sys2Proof.Machine

open Sys2Proof

-- The many small goals of `Keeps` are checked in turn: each one in flight holds a thread.
set_option Elab.async false

/-! ### The relation -/

/-- No freeze and no lock flag is cleared, and no counter falls or leaves its range (R166, R175). -/
structure NonVolatile.Kept (n m : NonVolatile) : Prop where
  freeze : n.freeze = true → m.freeze = true
  locks : ∀ k, n.lockFlags.getLsbD k = true → m.lockFlags.getLsbD k = true
  counters : countersInRange n → countersInRange m ∧
    n.faultEntries ≤ m.faultEntries ∧ n.livenessLosses ≤ m.livenessLosses ∧ n.commits ≤ m.commits ∧ n.service ≤ m.service

theorem NonVolatile.Kept.refl (n : NonVolatile) : n.Kept n :=
  ⟨id, fun _ => id, fun h => ⟨h, Nat.le_refl _, Nat.le_refl _, Nat.le_refl _, Nat.le_refl _⟩⟩

theorem NonVolatile.Kept.trans {n m k : NonVolatile} (h : n.Kept m) (l : m.Kept k) : n.Kept k where
  freeze := l.freeze ∘ h.freeze
  locks := fun i => l.locks i ∘ h.locks i
  counters := fun hn => by
    obtain ⟨hm, a1, a2, a3, a4⟩ := h.counters hn
    obtain ⟨hk, b1, b2, b3, b4⟩ := l.counters hm
    exact ⟨hk, a1.trans b1, a2.trans b2, a3.trans b3, a4.trans b4⟩

/-- P to 30 and CL to 200 bound the timers of a group under valid tables (R3, R169). -/
def Group.timersFit (x : Group) : Prop := x.prepareTimer ≤ 30 ∧ x.clearingTimer ≤ 200

/-- SF to 600, AS and FE to 100 bound the mode timers under valid tables (R47, R169). -/
def ModeControl.timersFit (m : ModeControl) : Prop := m.startFlashTimer ≤ 600 ∧ m.allStopTimer ≤ 100 ∧ m.flashEntryTimer ≤ 100

/-- From `s` to `t` each counted value stays in its range, the queue keeps its shape and the non-volatile contents are kept; under the
assumption `A` about the tables the timers stay within what valid ones give them; the reset lines, the bus tap's latches and the waiting
commands stand. A field is left out where its component stands. Every operation but a reset keeps it. -/
structure Keeps (A : Prop) (s t : State) : Prop where
  groups : ∀ g, groupInRange (s.group g) → groupInRange (t.group g) := by exact fun _ => id
  waits : (∀ g, s.arbiter.waits.get g ≤ 255 ∨ s.arbiter.waits.get g = 65535) →
    ∀ g, t.arbiter.waits.get g ≤ 255 ∨ t.arbiter.waits.get g = 65535 := by exact id
  detectors : ∀ d, detectorInRange (s.detector d) → detectorInRange (t.detector d) := by exact fun _ => id
  select : s.detectors.select.toNat ≤ 47 → t.detectors.select.toNat ≤ 47 := by exact id
  signs : ∀ r, (s.link.signs.get r).missRun ≤ 255 → (t.link.signs.get r).missRun ≤ 255 := by exact fun _ => id
  cursor : s.link.cursor.toNat ≤ 16 → t.link.cursor.toNat ≤ 16 := by exact id
  refusals : s.page.refusals ≤ 1023 → t.page.refusals ≤ 1023 := by exact id
  modeTimers : modeTimersInRange s.mode → modeTimersInRange t.mode := by exact id
  liveness : s.page.liveness ≤ 65535 → t.page.liveness ≤ 65535 := by exact id
  lamps : lampsInRange s.lamps → lampsInRange t.lamps := by exact id
  queue : QueueInv s.queue → QueueInv t.queue := by exact id
  nv : s.store.nv.Kept t.store.nv := by exact NonVolatile.Kept.refl _
  groupsFit : A → ∀ g, (s.group g).timersFit → (t.group g).timersFit := by exact fun _ _ => id
  modeFits : A → s.mode.timersFit → t.mode.timersFit := by exact fun _ => id
  livenessFits : A → s.page.liveness ≤ 100 → t.page.liveness ≤ 100 := by exact fun _ => id
  powerOnHeld : t.powerOnHeld = s.powerOnHeld := by exact rfl
  externalHeld : t.externalHeld = s.externalHeld := by exact rfl
  tap : t.tap = s.tap := by exact rfl
  pending : t.pending = s.pending := by exact rfl

section

variable {A : Prop} {s t u : State}

theorem Keeps.refl (A : Prop) (s : State) : Keeps A s s := {}

theorem Keeps.trans (h : Keeps A s t) (k : Keeps A t u) : Keeps A s u where
  groups := fun g => k.groups g ∘ h.groups g
  waits := k.waits ∘ h.waits
  detectors := fun d => k.detectors d ∘ h.detectors d
  select := k.select ∘ h.select
  signs := fun r => k.signs r ∘ h.signs r
  cursor := k.cursor ∘ h.cursor
  refusals := k.refusals ∘ h.refusals
  modeTimers := k.modeTimers ∘ h.modeTimers
  liveness := k.liveness ∘ h.liveness
  lamps := k.lamps ∘ h.lamps
  queue := k.queue ∘ h.queue
  nv := h.nv.trans k.nv
  groupsFit := fun a g => k.groupsFit a g ∘ h.groupsFit a g
  modeFits := fun a => k.modeFits a ∘ h.modeFits a
  livenessFits := fun a => k.livenessFits a ∘ h.livenessFits a
  powerOnHeld := k.powerOnHeld.trans h.powerOnHeld
  externalHeld := k.externalHeld.trans h.externalHeld
  tap := k.tap.trans h.tap
  pending := k.pending.trans h.pending

/-- A stronger assumption about the tables keeps what a weaker one does. -/
theorem Keeps.of_imp {B : Prop} (hb : B → A) (h : Keeps A s t) : Keeps B s t :=
  { h with
    groupsFit := fun b => h.groupsFit (hb b)
    modeFits := fun b => h.modeFits (hb b)
    livenessFits := fun b => h.livenessFits (hb b) }

/-- An operation under a condition. -/
theorem Keeps.ite {c : Prop} [Decidable c] (h : c → Keeps A s t) : Keeps A s (if c then t else s) := by
  split
  · rename_i hc; exact h hc
  · exact .refl A s

/-- What a step keeps of the invariants, under the assumption `A` about the tables. -/
structure InvariantsKept (A : Prop) (s t : State) : Prop where
  range : RangeInv s → RangeInv t
  queue : QueueInv s.queue → QueueInv t.queue
  timers : A → TimersInRange s → TimersInRange t
  nv : s.store.nv.Kept t.store.nv

theorem Keeps.rangeInv (h : Keeps A s t) (hs : RangeInv s) : RangeInv t where
  groups := fun g => h.groups g (hs.groups g)
  waits := h.waits hs.waits
  detectors := fun d => h.detectors d (hs.detectors d)
  select := h.select hs.select
  signs := fun r => h.signs r (hs.signs r)
  cursor := h.cursor hs.cursor
  refusals := h.refusals hs.refusals
  counters := (h.nv.counters hs.counters).1
  modeTimers := h.modeTimers hs.modeTimers
  liveness := h.liveness hs.liveness
  lamps := h.lamps hs.lamps

theorem Keeps.invariants (h : Keeps A s t) : InvariantsKept A s t where
  range := h.rangeInv
  queue := h.queue
  timers := fun a hs => ⟨fun g => h.groupsFit a g (hs.groups g), h.modeFits a hs.mode, h.livenessFits a hs.liveness⟩
  nv := h.nv

/-- A fold of turns that keep them, as long as `I` holds, which every turn preserves. -/
theorem foldl_keeps_of {α : Type} {I : State → Prop} {f : State → α → State} (hi : ∀ s a, I s → I (f s a))
    (hf : ∀ s a, I s → Keeps A s (f s a)) : ∀ (l : List α) (s : State), I s → Keeps A s (l.foldl f s)
  | [], s, _ => .refl A s
  | a :: l, s, h => (hf s a h).trans (foldl_keeps_of hi hf l (f s a) (hi s a h))

theorem foldl_keeps {α : Type} {f : State → α → State} (hf : ∀ s a, Keeps A s (f s a)) (l : List α) (s : State) :
    Keeps A s (l.foldl f s) :=
  foldl_keeps_of (I := fun _ => True) (fun _ _ => id) (fun s a _ => hf s a) l s trivial

theorem forGroups_keeps {f : GroupNo → State → State} (hf : ∀ g s, Keeps A s (f g s)) (s : State) : Keeps A s (forGroups f s) :=
  foldl_keeps (fun s g => .ite fun _ => hf g s) _ s

end

/-! ### The operations the meanings share -/

section

variable {A : Prop}

/-- A change of the queue alone. -/
theorem queue_keeps {s : State} {q : Queue} (h : QueueInv s.queue → QueueInv q) : Keeps A s { s with queue := q } := { queue := h }

theorem submit_keeps (k : EventKind) (x : Byte) (d : Word) (s : State) : Keeps A s (submit k x d s) :=
  queue_keeps fun h => h.submit k _ x d

/-- A property of a group's record over a turn of one group. -/
theorem moved_of {P : Group → Prop} {g : GroupNo} {s t : State} (hm : MovesOnly g s t) (h : P (s.group g) → P (t.group g)) (i : GroupNo)
    (hi : P (s.group i)) : P (t.group i) := by
  by_cases e : i = g
  · rw [e] at hi ⊢; exact h hi
  · rw [hm.2 i e]; exact hi

theorem setGroup_keeps {s : State} {g : GroupNo} {x : Group} (h : groupInRange (s.group g) → groupInRange x)
    (ht : A → (s.group g).timersFit → x.timersFit) : Keeps A s (s.setGroup g x) where
  groups := moved_of (setGroup_moves g x s) (by rwa [State.setGroup_group_self])
  groupsFit := fun a => moved_of (setGroup_moves g x s) (by rw [State.setGroup_group_self]; exact ht a)

/-- A record with its timers at 0 and E in range. -/
theorem groupInRange_entered {st : GroupState} {b c : Bool} {n : Nat} (h : n ≤ 65535) : groupInRange ⟨st, 0, 0, 0, b, c, n, 0⟩ :=
  ⟨Nat.zero_le _, Nat.zero_le _, Nat.zero_le _, h, Nat.zero_le _⟩

theorem timersFit_entered {st : GroupState} {b c : Bool} {n : Nat} : Group.timersFit ⟨st, 0, 0, 0, b, c, n, 0⟩ :=
  ⟨Nat.zero_le _, Nat.zero_le _⟩

/-- An entry of a group whose record was replaced, E in range. -/
theorem enterGroup_setGroup_keeps (g : GroupNo) (st : GroupState) (e : Option Nat) (held : Bool) {s : State} {x : Group}
    (he : groupInRange (s.group g) → e.getD x.elapsed ≤ 65535) : Keeps A s (enterGroup g st e held (s.setGroup g x)) where
  groups := moved_of ((setGroup_moves g x s).trans (enterGroup_moves g st e held _)) fun h => by
    rw [enterGroup_group, State.setGroup_group_self]; exact groupInRange_entered (he h)
  groupsFit := fun _ => moved_of ((setGroup_moves g x s).trans (enterGroup_moves g st e held _)) fun _ => by
    rw [enterGroup_group]; exact timersFit_entered
  queue := fun h => h.submit _ _ _ _

/-- An entry that leaves E or sets it to 0. -/
theorem enterGroup_keeps (g : GroupNo) (st : GroupState) (e : Option Nat) (held : Bool) (s : State)
    (he : ∀ n, e.getD n ≤ n := by simp) : Keeps A s (enterGroup g st e held s) where
  groups := moved_of (enterGroup_moves g st e held s) fun h => by
    rw [enterGroup_group]; exact groupInRange_entered ((he _).trans h.2.2.2.1)
  groupsFit := fun _ => moved_of (enterGroup_moves g st e held s) fun _ => by rw [enterGroup_group]; exact timersFit_entered
  queue := fun h => h.submit _ _ _ _

theorem startStoppedTimer_keeps (s : State) : Keeps A s (startStoppedTimer s) := by
  unfold startStoppedTimer
  refine .ite fun _ => { modeTimers := fun h => ?_, modeFits := fun _ h => ?_ }
  · exact ⟨h.1, Nat.zero_le _, Nat.zero_le _⟩
  · exact ⟨h.1, Nat.zero_le _, Nat.zero_le _⟩

theorem enterStop_keeps (g : GroupNo) (e : Option Nat) (s : State) (he : ∀ n, e.getD n ≤ n := by simp) : Keeps A s (enterStop g e s) :=
  (enterGroup_keeps g .stop e false s he).trans (startStoppedTimer_keeps _)

theorem enterClearing_keeps (g : GroupNo) (s : State) : Keeps A s (enterClearing g s) := enterGroup_keeps g .clearing (some 0) false s

theorem holdRule_keeps (g : GroupNo) (s : State) : Keeps A s (holdRule g s) := by
  unfold holdRule
  refine .ite fun _ => ?_
  split
  · exact enterClearing_keeps g s
  · exact enterStop_keeps g none s
  · exact .refl A s

theorem holdSweep_keeps (s : State) : Keeps A s (holdSweep s) := forGroups_keeps holdRule_keeps s

theorem clearCalls_keeps (m : Mask) (s : State) : Keeps A s (clearCalls m s) := {}

theorem setCalls_keeps (m : Mask) (s : State) : Keeps A s (setCalls m s) := {}

theorem enterGo_keeps (g : GroupNo) (s : State) : Keeps A s (enterGo g s) :=
  ((enterGroup_keeps g .go none _ s).trans (clearCalls_keeps _ _)).trans (holdRule_keeps g _)

theorem enterPrepare_keeps (g : GroupNo) (s : State) : Keeps A s (enterPrepare g s) :=
  (enterGroup_keeps g .prepare none false s).trans (holdRule_keeps g _)

theorem grant_keeps (g : GroupNo) (s : State) : Keeps A s (grant g s) := by
  unfold grant
  split
  · exact enterPrepare_keeps g s
  · exact enterGo_keeps g s

theorem orderGroup_keeps (st : GroupState) (g : GroupNo) (s : State) : Keeps A s (orderGroup st g s) := by
  unfold orderGroup
  split
  · exact .refl A s
  · exact enterGroup_keeps g st none false s

theorem orderAll_keeps (st : GroupState) (s : State) : Keeps A s (orderAll st s) := forGroups_keeps (orderGroup_keeps st) s

theorem allStopOrder_keeps (g : GroupNo) (s : State) : Keeps A s (allStopOrder g s) := by
  unfold allStopOrder
  split
  · exact enterClearing_keeps g s
  · exact enterStop_keeps g (some 0) s

/-! ### Request changes -/

theorem resetAge_keeps (g : GroupNo) (s : State) : Keeps A s (resetAge g s) := by
  have h : Keeps A s (s.setGroup g { s.group g with age := 0 }) :=
    setGroup_keeps (fun ⟨a, b, c, d, _⟩ => ⟨a, b, c, d, Nat.zero_le _⟩) fun _ => id
  unfold resetAge
  exact h.trans (.ite fun _ => {})

theorem requestSet_keeps (g : GroupNo) (s : State) : Keeps A s (requestSet g s) := by
  unfold requestSet
  split
  · exact resetAge_keeps g s
  · exact setGroup_keeps id fun _ => id
  · exact setGroup_keeps id fun _ => id
  · exact .refl A s

theorem requestCleared_keeps (g : GroupNo) (s : State) : Keeps A s (requestCleared g s) := by
  unfold requestCleared
  split
  · exact resetAge_keeps g s
  · refine Keeps.trans ?_ (submit_keeps _ _ _ _)
    exact setGroup_keeps id fun _ => id
  · split
    · exact enterClearing_keeps g s
    · refine Keeps.trans ?_ (submit_keeps _ _ _ _)
      exact setGroup_keeps id fun _ => id
  · exact .refl A s

theorem toFlashTurn_keeps (g : GroupNo) (s : State) : Keeps A s (toFlashTurn g s) := by
  have h : Keeps A s (endRequest g s) := .ite fun _ => requestCleared_keeps g s
  exact h.trans (holdRule_keeps g _)

/-! ### Changes of mode -/

theorem setMode_keeps (m : Mode) (c : Cause) (s : State) : Keeps A s (setMode m c s) where
  refusals := fun h => by unfold setMode; dsimp only; split <;> omega
  modeTimers := fun _ => ⟨Nat.zero_le _, Nat.zero_le _, Nat.zero_le _⟩
  liveness := fun h => by unfold setMode; dsimp only; split <;> omega
  modeFits := fun _ _ => ⟨Nat.zero_le _, Nat.zero_le _, Nat.zero_le _⟩
  livenessFits := fun _ h => by unfold setMode; dsimp only; split <;> omega

theorem changeMode_keeps (m : Mode) (c : Cause) {orders : State → State} (ho : ∀ s, Keeps A s (orders s)) (s : State) :
    Keeps A s (changeMode m c orders s) := ((setMode_keeps m c s).trans (submit_keeps _ _ _ _)).trans (ho _)

theorem setNormalPending_keeps (b : Bool) (s : State) : Keeps A s (setNormalPending b s) := {}

theorem allStopEntry_keeps (s : State) : Keeps A s (allStopEntry s) := by
  have h : ∀ t, Keeps A t (startLiveness t) := fun _ =>
    { liveness := fun _ => Nat.zero_le _, livenessFits := fun _ _ => Nat.zero_le _ }
  exact (changeMode_keeps .allStop .software (forGroups_keeps allStopOrder_keeps) s).trans (h _)

theorem toFlashEntry_keeps (c : Cause) (s : State) : Keeps A s (toFlashEntry c s) :=
  changeMode_keeps .toFlash c (fun s => (startStoppedTimer_keeps s).trans (forGroups_keeps toFlashTurn_keeps _)) s

theorem normalEntry_keeps (s : State) : Keeps A s (normalEntry s) := changeMode_keeps .normal _ holdSweep_keeps s

theorem flashEntry_keeps (c : Cause) (s : State) : Keeps A s (flashEntry c s) := changeMode_keeps .flash c (orderAll_keeps .flashing) s

theorem darkEntry_keeps (s : State) : Keeps A s (darkEntry s) :=
  (changeMode_keeps .dark .software (orderAll_keeps .unlit) s).trans (setNormalPending_keeps false _)

/-- A counter one up, at most at the limit it saturates at. -/
theorem satAdd_le (n limit : Nat) : satAdd n limit ≤ limit := Nat.min_le_right _ _

theorem le_satAdd {n limit : Nat} (h : n ≤ limit) : n ≤ satAdd n limit := Nat.le_min.2 ⟨Nat.le_succ n, h⟩

theorem faultState_keeps (c : FaultCause) (a b : Byte) (s : State) : Keeps A s (faultState c a b s) := by
  have h : Keeps A s { s with store := { s.store with nv := { s.store.nv with
      lastFault := ⟨some c, a, b, s.clock, s.mode.mode⟩
      faultEntries := satAdd s.store.nv.faultEntries Config.counterLimit } } } :=
    { nv := ⟨id, fun _ => id, fun ⟨h1, h2⟩ => ⟨⟨satAdd_le _ _, h2⟩, le_satAdd h1, Nat.le_refl _, Nat.le_refl _, Nat.le_refl _⟩⟩ }
  exact (h.trans (setMode_keeps _ _ _)).trans (setNormalPending_keeps _ _)

theorem faultEntry_keeps (c : FaultCause) (a b : Byte) (s : State) : Keeps A s (faultEntry c a b s) :=
  (((faultState_keeps c a b s).trans (submit_keeps _ _ _ _)).trans (submit_keeps _ _ _ _)).trans (orderAll_keeps .flashing _)

theorem declareFault_keeps (c : FaultCause) (a b : Byte) (s : State) : Keeps A s (declareFault c a b s) := by
  unfold declareFault
  split
  · exact submit_keeps _ _ _ _
  · exact faultEntry_keeps c a b s

end

end Sys2Proof.Machine

/-! PROOFS. The ranges over the detector unit's, the sign link's and the lamp monitor's operations (R101 to R103, R113, R116, R118, R119, R138,
R141). -/

namespace Sys2Proof.Machine

open Sys2Proof

-- The many small goals of `Keeps` are checked in turn: each one in flight holds a thread.
set_option Elab.async false

section

variable {A : Prop}

/-! ### Detectors -/

theorem setDetector_keeps {s : State} {d : DetectorNo} {x : Detector} (h : detectorInRange (s.detector d) → detectorInRange x) :
    Keeps A s (s.setDetector d x) where
  detectors := fun e he => by
    by_cases hd : e = d
    · rw [hd] at he ⊢; rw [State.setDetector_detector_self]; exact h he
    · rw [State.setDetector_detector_ne s x hd]; exact he

theorem submitDetector_keeps (k : EventKind) (d : DetectorNo) (w : Word) (s : State) : Keeps A s (submitDetector k d w s) :=
  submit_keeps _ _ _ _

/-- The filter's run is short of the filter of its direction, which is one byte (R116). -/
theorem filterSample_inRange (x : Bool) {v : Detector} (h : detectorInRange v) : detectorInRange (filterSample x v).1 := by
  obtain ⟨hp, hr, ho, hg, ha⟩ := h
  have hb : (if v.level = true then v.offFilter.toNat else v.onFilter.toNat) ≤ 255 := by
    have := v.offFilter.isLt; have := v.onFilter.isLt; split <;> omega
  unfold filterSample
  dsimp only
  generalize (if v.level = true then v.offFilter.toNat else v.onFilter.toNat) = limit at hb ⊢
  split
  · exact ⟨hp, Nat.zero_le _, ho, hg, ha⟩
  · split
    · exact ⟨hp, Nat.zero_le _, ho, hg, ha⟩
    · exact ⟨hp, by show v.run + 1 ≤ 255; omega, ho, hg, ha⟩

/-- The accumulator is short of N, which is one word (R118). -/
theorem accumulate_inRange {v : Detector} (h : detectorInRange v) : detectorInRange (accumulate v).1 := by
  obtain ⟨hp, hr, ho, hg, ha⟩ := h
  have hn := v.prescale.isLt
  unfold accumulate
  split
  · exact ⟨hp, hr, ho, hg, Nat.zero_le _⟩
  · exact ⟨hp, hr, ho, hg, by show v.accumulator + 1 ≤ 65534; omega⟩

/-- An entry to OCCUPIED keeps the detector's values in range. -/
theorem occupied_inRange {v : Detector} (h : detectorInRange v) : detectorInRange { v with state := .occupied, occupancy := 0 } := by
  obtain ⟨hp, hr, -, hg, ha⟩ := h
  exact ⟨hp, hr, Nat.zero_le _, hg, ha⟩

theorem occupy_keeps (d : DetectorNo) (s : State) : Keeps A s (occupy d s) := by
  unfold occupy
  dsimp only
  split
  · exact ((setDetector_keeps occupied_inRange).trans (submitDetector_keeps _ d _ _)).trans (setCalls_keeps _ _)
  · exact ((setDetector_keeps occupied_inRange).trans (submitDetector_keeps _ d _ _)).trans (setCalls_keeps _ _)
  · have h := setDetector_keeps (A := A) (s := s) (d := d) fun h => accumulate_inRange (occupied_inRange h)
    split
    · exact h.trans (submitDetector_keeps _ d _ _)
    · exact h
  · exact .refl A s

theorem activate_keeps (d : DetectorNo) (s : State) : Keeps A s (activate d s) := by
  have h : Keeps A s (s.setDetector d { s.detector d with total := (s.detector d).total + 1, gap := 0 }) :=
    setDetector_keeps fun ⟨hp, hr, ho, _, ha⟩ => ⟨hp, hr, ho, Nat.zero_le _, ha⟩
  unfold activate
  dsimp only
  split
  · exact h.trans (occupy_keeps d _)
  · exact (h.trans (submitDetector_keeps _ d _ _)).trans (occupy_keeps d _)
  · exact h

theorem deactivate_keeps (d : DetectorNo) (s : State) : Keeps A s (deactivate d s) := by
  unfold deactivate
  dsimp only
  split
  · have h : Keeps A s (s.setDetector d { s.detector d with state := .free }) := setDetector_keeps id
    split
    · exact h.trans (submitDetector_keeps _ d _ _)
    · exact h
  · have h : Keeps A s (s.setDetector d { s.detector d with state := .free, gap := 0 }) :=
      setDetector_keeps fun ⟨hp, hr, ho, _, ha⟩ => ⟨hp, hr, ho, Nat.zero_le _, ha⟩
    exact h.trans (submitDetector_keeps _ d _ _)
  · exact .refl A s

theorem sampleDetector_keeps (inputs : BitVec 48) (s : State) (d : DetectorNo) : Keeps A s (sampleDetector inputs s d) := by
  unfold sampleDetector
  dsimp only
  split
  · exact setDetector_keeps id
  · have h : Keeps A s (s.setDetector d (filterSample (inputs.getLsbD d.val) { s.detector d with raw := inputs.getLsbD d.val }).1) :=
      setDetector_keeps fun h => filterSample_inRange _ h
    split
    · split
      · exact h.trans (activate_keeps d _)
      · exact h.trans (deactivate_keeps d _)
    · exact h

theorem detectorSample_keeps (inputs : BitVec 48) (s : State) : Keeps A s (detectorSample inputs s) := by
  have h : Keeps A s (beginSample s) := queue_keeps QueueInv.atSample
  unfold detectorSample
  split
  · exact .refl A s
  · exact h.trans (foldl_keeps (sampleDetector_keeps inputs) _ _)

theorem advanceDetector_inRange {v : Detector} (h : detectorInRange v) : detectorInRange (advanceDetector v) := by
  obtain ⟨hp, hr, ho, hg, ha⟩ := h
  refine ⟨hp, hr, ?_, ?_, ha⟩
  · unfold advanceDetector; dsimp only; split
    · exact satAdd_le _ _
    · exact ho
  · unfold advanceDetector; dsimp only; split
    · exact satAdd_le _ _
    · exact hg

theorem enterStuck_keeps (d : DetectorNo) (st : DetectorState) (w : Word) (s : State) : Keeps A s (enterStuck d st w s) := by
  have h : Keeps A s (s.setDetector d { s.detector d with state := st }) := setDetector_keeps id
  exact (h.trans (submitDetector_keeps _ d w _)).trans (setCalls_keeps _ _)

theorem stepDetector_keeps (s : State) (d : DetectorNo) : Keeps A s (stepDetector s d) := by
  have h : Keeps A s (s.setDetector d (advanceDetector (s.detector d))) := setDetector_keeps advanceDetector_inRange
  unfold stepDetector
  dsimp only
  split
  · exact h.trans (enterStuck_keeps d _ _ _)
  · split
    · exact h.trans (enterStuck_keeps d _ _ _)
    · exact h

theorem detectorStep_keeps (s : State) : Keeps A s (detectorStep s) := by
  have h : Keeps A s { s with parts := { s.parts with detectors := false } } := {}
  unfold detectorStep
  exact .ite fun _ => h.trans (foldl_keeps stepDetector_keeps _ _)

theorem writeKind_keeps (d : DetectorNo) (k : DetectorKind) (s : State) : Keeps A s (writeKind d k s) := by
  unfold writeKind
  dsimp only
  split
  · exact .refl A s
  · exact setDetector_keeps fun ⟨hp, _⟩ => ⟨hp, Nat.zero_le _, Nat.zero_le _, Nat.zero_le _, Nat.zero_le _⟩

theorem addStandingCalls_keeps (d : DetectorNo) (m : Mask) (s : State) : Keeps A s (addStandingCalls d m s) := by
  unfold addStandingCalls
  exact .ite fun _ => setCalls_keeps _ _

theorem writeSettings_keeps (d : DetectorNo) (offset : Nat) (w : Word) (s : State) : Keeps A s (writeSettings d offset w s) := by
  unfold writeSettings
  dsimp only
  split
  · exact setDetector_keeps id
  split
  · refine Keeps.trans ?_ (addStandingCalls_keeps _ _ _)
    exact setDetector_keeps id
  split
  · refine Keeps.trans ?_ (addStandingCalls_keeps _ _ _)
    exact setDetector_keeps id
  split
  · refine setDetector_keeps fun ⟨_, hr⟩ => ⟨?_, hr⟩
    dsimp only
    split
    · decide
    · rename_i hw
      exact Nat.pos_of_ne_zero fun e => hw (BitVec.eq_of_toNat_eq e)
  · exact setDetector_keeps id

/-! ### Signs -/

theorem setSign_keeps {s : State} {r : SignNo} {x : Sign} (h : (s.link.signs.get r).missRun ≤ 255 → x.missRun ≤ 255) :
    Keeps A s (s.setSign r x) where
  signs := fun q hq => by
    by_cases e : q = r
    · rw [e] at hq ⊢; rw [State.setSign_self]; exact h hq
    · rw [State.setSign_ne s x e]; exact hq

theorem submitSign_keeps (k : EventKind) (r : SignNo) (w : Word) (s : State) : Keeps A s (submitSign k r w s) := submit_keeps _ _ _ _

theorem endPoll_keeps (s : State) : Keeps A s (endPoll s) := {}

theorem signLives_keeps (p : Poll) (s : State) : Keeps A s (signLives p s) := by
  have h : Keeps A s (s.setSign p.record { s.link.signs.get p.record with state := .live, missRun := 0 }) :=
    setSign_keeps fun _ => Nat.zero_le _
  unfold signLives
  dsimp only
  split
  · exact h
  · exact h.trans (submitSign_keeps _ _ _ _)

theorem takeStatus_keeps (p : Poll) (flags : SignStatus) (s : State) : Keeps A s (takeStatus p flags s) := by
  have h : Keeps A s (s.setSign p.record { s.link.signs.get p.record with status := flags }) := setSign_keeps id
  unfold takeStatus
  dsimp only
  split
  · exact .refl A s
  · exact h.trans (submitSign_keeps _ _ _ _)

theorem goodOutcome_keeps (p : Poll) (status : Byte) (s : State) : Keeps A s (goodOutcome p status s) := by
  unfold goodOutcome
  split
  · exact ((signLives_keeps p s).trans (takeStatus_keeps p _ _)).trans (endPoll_keeps _)
  · exact endPoll_keeps s

theorem missOutcome_keeps (p : Poll) (s : State) : Keeps A s (missOutcome p s) := by
  have h : ∀ st, Keeps A s (s.setSign p.record ⟨st, nextMiss (s.link.signs.get p.record), (s.link.signs.get p.record).status⟩) :=
    fun _ => setSign_keeps fun _ => satAdd_le _ _
  unfold missOutcome
  dsimp only
  split
  · split
    · exact ((h .silent).trans (endPoll_keeps _)).trans (submitSign_keeps _ _ _ _)
    · exact (h _).trans (endPoll_keeps _)
  · exact endPoll_keeps s

theorem goodReply_keeps (r : Reply) (s : State) : Keeps A s (goodReply r s) := by
  unfold goodReply
  split
  · exact .ite fun _ => goodOutcome_keeps _ _ s
  · exact .refl A s

theorem closeWindow_keeps (s : State) : Keeps A s (closeWindow s) := by
  unfold closeWindow
  split
  · exact .ite fun _ => missOutcome_keeps _ s
  · exact .refl A s

theorem channelByteStart_keeps (s : State) : Keeps A s (channelByteStart s) := by
  rcases channelByteStart_cases s with ⟨_, -, -, -, h⟩ | h <;> rw [h]
  · exact {}
  · exact .refl A s

theorem openWindow_keeps (s : State) : Keeps A s (openWindow s) := by
  unfold openWindow
  split
  · exact .ite fun _ => { queue := QueueInv.endMoment }
  · exact .refl A s

/-- A used record's address is at most 16, and the addresses above the cursor are those of used records (R130, R138). -/
theorem addressAbove_le (s : State) (cursor : Nat) : (addressAbove s cursor).getD 0 ≤ 16 := by
  unfold addressAbove
  refine List.foldlRecOn (motive := fun best : Option Nat => best.getD 0 ≤ 16) _ _ (Nat.zero_le _) fun best hb r hr => ?_
  have hu : (s.signRecord r).address.toNat ≤ 16 := by
    have := (List.mem_filter.1 hr).2
    simp only [State.signUsed, SignRecord.used, Bool.and_eq_true, decide_eq_true_iff] at this
    exact this.2.2
  dsimp only
  split
  · cases best
    · exact hu
    · exact (Nat.min_le_left _ _).trans hu
  · exact hb

theorem nextAddress_le (s : State) : nextAddress s ≤ 16 := by
  have h1 := addressAbove_le s s.link.cursor.toNat
  have h2 := addressAbove_le s 0
  unfold nextAddress
  cases h : addressAbove s s.link.cursor.toNat with
  | none => exact h2
  | some a => rw [h] at h1; exact h1

theorem beginFrame_keeps {poll : Nat} (h : poll ≤ 16) (s : State) : Keeps A s (beginFrame poll s) where
  cursor := fun hc => by
    unfold beginFrame
    dsimp only
    split
    · exact hc
    · rw [BitVec.toNat_ofNat]; omega

theorem frameEvent_keeps (s : State) : Keeps A s (frameEvent s) := by
  have frame : ∀ (first : Bool) (t : State), Keeps A t
      (if (usedSigns { t with link := { t.link with firstFrame := false } }).isEmpty then
        { t with link := { t.link with firstFrame := false, frame := none, line := [], windowOpen := false } }
      else beginFrame (if first then 0 else nextAddress { t with link := { t.link with firstFrame := false } })
        { t with link := { t.link with firstFrame := false } }) := by
    intro first t
    have h : Keeps A t { t with link := { t.link with firstFrame := false } } := {}
    split
    · exact {}
    · refine h.trans (beginFrame_keeps ?_ _)
      split
      · exact Nat.zero_le _
      · exact nextAddress_le _
  unfold frameEvent
  dsimp only
  split
  · exact (missOutcome_keeps _ s).trans (frame _ _)
  · exact frame _ s

/-! ### The lamp monitor -/

theorem nextCount_le (found : Bool) (n : Nat) : nextCount found n ≤ 255 := by
  unfold nextCount
  split
  · exact satAdd_le _ _
  · exact Nat.zero_le _

/-- A change of the lamp monitor alone. -/
theorem lamps_keeps {s : State} {l : LampMonitor} (h : lampsInRange s.lamps → lampsInRange l) : Keeps A s { s with lamps := l } :=
  { lamps := h }

theorem takeSample_keeps (x : SenseSample) (s : State) : Keeps A s (takeSample x s) :=
  lamps_keeps fun ⟨_, _, h3, h4⟩ => ⟨by simp [Config.senseWindow], by simp [Config.senseWindow], h3, h4⟩

/-- Every run of a judged sample is a count that saturates at 255 (R103). -/
theorem judge_lampsInRange {s : State} (h : lampsInRange s.lamps) : lampsInRange (judge s).lamps := by
  obtain ⟨h1, h2, -, -⟩ := h
  simp only [lampsInRange, judge, vector_get_ofFn]
  exact ⟨h1, h2, fun _ _ => nextCount_le _ _, fun _ => ⟨nextCount_le _ _, nextCount_le _ _, nextCount_le _ _, nextCount_le _ _⟩⟩

theorem judge_keeps (s : State) : Keeps A s (judge s) := lamps_keeps judge_lampsInRange

theorem reportLine_keeps (r : State) (g : GroupNo) (line : Line) (s : State) : Keeps A s (reportLine r g line s) :=
  .ite fun _ => submit_keeps _ _ _ _

theorem reportLamps_keeps (r s : State) : Keeps A s (reportLamps r s) :=
  foldl_keeps (fun _ g => ((reportLine_keeps r g _ _).trans (reportLine_keeps r g _ _)).trans (reportLine_keeps r g _ _)) _ s

theorem declareConflicts_keeps (r s : State) : Keeps A s (declareConflicts r s) :=
  foldl_keeps (fun s _ => foldl_keeps (fun _ _ => .ite fun _ => declareFault_keeps _ _ _ _) _ s) _ s

theorem declareUncommanded_keeps (r s : State) : Keeps A s (declareUncommanded r s) :=
  foldl_keeps (fun _ _ => .ite fun _ => declareFault_keeps _ _ _ _) _ s

theorem declareRedOut_keeps (r s : State) : Keeps A s (declareRedOut r s) :=
  foldl_keeps (fun _ _ => .ite fun _ => declareFault_keeps _ _ _ _) _ s

theorem lampPart_keeps (x : SenseSample) (s : State) : Keeps A s (lampPart x s) := by
  have h : Keeps A s { s with parts := { s.parts with lamps := false } } := {}
  have ho : ∀ t, Keeps A t (openInterval t) := fun _ => {}
  unfold lampPart takeLampSample
  exact .ite fun _ => (((((h.trans (takeSample_keeps x _)).trans (judge_keeps _)).trans (reportLamps_keeps _ _)).trans
    (declareConflicts_keeps _ _)).trans (declareUncommanded_keeps _ _)).trans ((declareRedOut_keeps _ _).trans (ho _))

end

end Sys2Proof.Machine

/-! PROOFS. The ranges over the processor's accesses: the request page, the served pages and the table store (R89, R98, R151 to R153, R165, R166,
R175, R176, R180). -/

namespace Sys2Proof.Machine

open Sys2Proof

-- The many small goals of `Keeps` are checked in turn: each one in flight holds a thread.
set_option Elab.async false

section

variable {A : Prop}

/-! ### The request page -/

/-- A mirror replaced leaves the counts of the page. -/
theorem setMirror_keeps (word : Nat) (m : MirrorWord) (s : State) : Keeps A s { s with page := s.page.setMirror word m } := by
  unfold RequestPage.setMirror
  split
  · exact {}
  · split <;> exact {}

theorem forwardWord_keeps (word : Nat) (v : Word) (s : State) : Keeps A s (forwardWord word v s) := by
  have h : ∀ (t : State) (b : BusPins), Keeps A t { t with bus := b } := fun _ _ => {}
  exact (setMirror_keeps word ⟨v, true, false⟩ s).trans (h _ _)

theorem requestAccepted_keeps (s : State) : Keeps A s (requestAccepted s) where
  refusals := fun _ => Nat.zero_le _
  liveness := fun h => by unfold requestAccepted; dsimp only; split <;> omega
  livenessFits := fun _ h => by unfold requestAccepted; dsimp only; split <;> omega

theorem setRefusals_keeps {n : Nat} (hn : n ≤ 1023) (s : State) : Keeps A s (setRefusals n s) := { refusals := fun _ => hn }

theorem countRefusal_keeps (s : State) : Keeps A s (countRefusal s) := by
  have h : Keeps A s (setRefusals (nextRefusals s) s) := setRefusals_keeps (satAdd_le _ _) s
  unfold countRefusal
  split
  · exact (h.trans (toFlashEntry_keeps _ _)).trans (setRefusals_keeps (Nat.zero_le _) _)
  · exact h

theorem requestRefused_keeps (word : Nat) (reason : Reason) (l : Level) (s : State) : Keeps A s (requestRefused word reason l s) :=
  (submit_keeps _ _ _ s).trans (countRefusal_keeps _)

theorem handChanges_keeps (old : Mask) (s : State) : Keeps A s (handChanges old s) := by
  unfold handChanges
  dsimp only
  split
  · exact .refl A s
  · refine forGroups_keeps (fun g s => ?_) s
    split
    · exact .refl A s
    · split
      · exact requestSet_keeps g s
      · exact requestCleared_keeps g s

theorem modeAct_keeps (v : Nat) (s : State) : Keeps A s (modeAct v s) := by
  unfold modeAct
  split
  · split
    · exact setNormalPending_keeps _ s
    · exact setNormalPending_keeps _ s
  · exact .ite fun _ => toFlashEntry_keeps _ s
  · exact .ite fun _ => toFlashEntry_keeps _ s
  · exact .refl A s
  · split
    · exact setNormalPending_keeps _ s
    · split
      · split
        · exact setNormalPending_keeps _ s
        · exact allStopEntry_keeps s
      · exact darkEntry_keeps s
  · exact .ite fun _ => flashEntry_keeps _ s
  · exact .refl A s

theorem modeWordWrite_keeps (w : BusWrite) (s : State) : Keeps A s (modeWordWrite w s) := by
  unfold modeWordWrite
  dsimp only
  split
  · exact (forwardWord_keeps _ _ s).trans (requestRefused_keeps _ _ _ _)
  · split
    · exact (forwardWord_keeps _ _ s).trans (requestRefused_keeps _ _ _ _)
    · exact ((forwardWord_keeps _ _ s).trans (modeAct_keeps _ _)).trans (requestAccepted_keeps _)

theorem requestWrite_keeps (word : Nat) (w : BusWrite) (s : State) : Keeps A s (requestWrite word w s) := by
  unfold requestWrite
  split
  · exact .refl A s
  split
  · exact requestRefused_keeps _ _ _ s
  split
  · exact ((forwardWord_keeps _ _ s).trans (handChanges_keeps _ _)).trans (requestAccepted_keeps _)
  · exact modeWordWrite_keeps w s

theorem answerRead_keeps (v : Word) (s : State) : Keeps A s (answerRead v s) := {}

theorem comparedRead_keeps (word : Nat) (e : ByteEnables) (memory : Word) (s : State) : Keeps A s (comparedRead word e memory s) := by
  have hb : ∀ (t : State) (b : BusPins), Keeps A t { t with bus := b } := fun _ _ => {}
  unfold comparedRead
  dsimp only
  split
  · exact hb s _
  · split
    · exact hb s _
    · refine Keeps.trans ?_ (submit_keeps _ _ _ _)
      exact (setMirror_keeps word _ s).trans (hb _ _)

theorem requestRead_keeps (word : Nat) (e : ByteEnables) (l : Level) (memory : Word) (s : State) :
    Keeps A s (requestRead word e l memory s) := by
  unfold requestRead
  split
  · exact answerRead_keeps _ s
  split
  · exact answerRead_keeps _ s
  split
  · exact answerRead_keeps _ s
  · exact comparedRead_keeps word e memory s

/-! ### The table store -/

/-- A change of the staging tables, the commit state or the result alone. -/
theorem staging_keeps {s : State} {x : TableStore} (h : x.nv = s.store.nv) : Keeps A s { s with store := x } :=
  { nv := by rw [h]; exact .refl _ }

theorem writeStaging_keeps (offset : Nat) (w : BusWrite) (s : State) : Keeps A s (writeStaging offset w s).state := by
  unfold writeStaging
  dsimp only
  split
  · exact .refl A s
  split
  · exact .refl A s
  split
  · exact .refl A s
  · exact staging_keeps rfl

theorem applyLock_keeps (w : BusWrite) (s : State) : Keeps A s (applyLock w s) where
  nv := ⟨fun h => by simp [applyLock, h], fun k h => by simp [applyLock, h], (NonVolatile.Kept.refl s.store.nv).counters⟩

theorem writeLock_keeps (w : BusWrite) (s : State) : Keeps A s (writeLock w s).state := by
  unfold writeLock
  split
  · exact .refl A s
  split
  · exact .refl A s
  split
  · exact .refl A s
  split
  · exact .refl A s
  · exact applyLock_keeps w s

theorem decideCommit_keeps (s : State) : Keeps A s (decideCommit s) := by
  have h : ∀ r, Keeps A s (setResult r s) := fun _ => staging_keeps rfl
  unfold decideCommit
  split
  · exact (h _).trans (submit_keeps _ _ _ _)
  · split
    · exact (h _).trans (submit_keeps _ _ _ _)
    · exact staging_keeps rfl

theorem requestCommit_keeps (s : State) : Keeps A s (requestCommit s).state := by
  unfold requestCommit
  split
  · exact staging_keeps rfl
  · exact decideCommit_keeps s

theorem writeService_keeps (w : BusWrite) (s : State) : Keeps A s (writeService w s).state := by
  unfold writeService
  dsimp only
  split
  · rename_i hs
    exact { nv := ⟨id, fun _ => id, fun ⟨h1, h2, h3, _⟩ =>
      ⟨⟨h1, h2, h3, hs⟩, Nat.le_refl _, Nat.le_refl _, Nat.le_refl _, Nat.le_add_right _ _⟩⟩ }
  · exact .refl A s

/-! ### The served pages -/

theorem detectorPageWrite_keeps (offset : Nat) (w : BusWrite) (s : State) : Keeps A s (detectorPageWrite offset w s).state := by
  unfold detectorPageWrite
  dsimp only
  split
  · split
    · exact .refl A s
    · rename_i hx
      exact { select := fun _ => Nat.le_of_not_lt hx }
  split
  · exact writeKind_keeps _ _ s
  split
  · exact writeSettings_keeps _ _ _ s
  split
  · exact clearCalls_keeps _ s
  · exact clearCalls_keeps _ s

theorem commitPageWrite_keeps (offset : Nat) (w : BusWrite) (s : State) : Keeps A s (commitPageWrite offset w s).state := by
  unfold commitPageWrite
  split
  · exact requestCommit_keeps s
  split
  · exact writeLock_keeps w s
  · exact writeService_keeps w s

theorem writeImage_keeps (word : Nat) (w : Word) (e : ByteEnables) (s : State) : Keeps A s (writeImage word w e s) := by
  have h : ∀ v, Keeps A s { s with link := { s.link with image := v } } := fun _ => {}
  exact h _

theorem ownerWrite_keeps (page offset : Nat) (w : BusWrite) (s : State) : Keeps A s (ownerWrite page offset w s).state := by
  unfold ownerWrite
  split
  · exact detectorPageWrite_keeps offset w s
  split
  · split
    · exact queue_keeps fun h => h.setEnableB _
    · exact submit_keeps _ _ _ s
  split
  · exact writeImage_keeps _ _ _ s
  split
  · exact commitPageWrite_keeps offset w s
  · exact writeStaging_keeps _ w s

theorem settle_keeps {s : State} {a : Answer} (h : Keeps A s a.state) (page offset : Nat) (l : Level) : Keeps A s (settle page offset l a) := by
  unfold settle
  split
  · exact h
  · exact h.trans (submit_keeps _ _ _ _)

theorem servedWrite_keeps (page offset : Nat) (w : BusWrite) (s : State) : Keeps A s (servedWrite page offset w s) := by
  unfold servedWrite
  split
  · exact .refl A s
  · split
    · exact .refl A s
    · exact submit_keeps _ _ _ s
    · split
      · exact settle_keeps (ownerWrite_keeps page offset w s) page offset w.level
      · exact submit_keeps _ _ _ s

theorem readWord_keeps (page offset : Nat) (s : State) : Keeps A s (readWord page offset s) := by
  have h : Keeps A s (answerRead (servedValue s page offset) { s with latches := latchedBy s page offset }) := {}
  unfold readWord
  dsimp only
  split
  · exact h.trans (queue_keeps fun k => k.take _)
  split
  · exact h.trans (queue_keeps fun k => k.take _)
  split
  · exact h.trans (queue_keeps QueueInv.settled)
  · exact h

theorem servedRead_keeps (page offset : Nat) (l : Level) (s : State) : Keeps A s (servedRead page offset l s) := by
  unfold servedRead
  split
  · exact answerRead_keeps _ s
  split
  · exact answerRead_keeps _ s
  · exact readWord_keeps page offset s

/-! ### Accesses -/

theorem beginAccess_keeps (s : State) : Keeps A s (beginAccess s) := { queue := QueueInv.atAccess }

theorem passWrite_keeps (a : Addr) (w : BusWrite) (s : State) : Keeps A s (passWrite a w s) := {}

theorem passRead_keeps (a : Addr) (e : ByteEnables) (memory : Word) (s : State) : Keeps A s (passRead a e memory s) := {}

theorem guardedWrite_keeps (page offset : Nat) (w : BusWrite) (s : State) : Keeps A s (guardedWrite page offset w s) := by
  unfold guardedWrite
  split
  · exact (beginAccess_keeps s).trans (requestWrite_keeps offset w _)
  split
  · exact (beginAccess_keeps s).trans (servedWrite_keeps page offset w _)
  · exact passWrite_keeps _ w s

theorem guardedRead_keeps (page offset : Nat) (e : ByteEnables) (l : Level) (memory : Word) (s : State) :
    Keeps A s (guardedRead page offset e l memory s) := by
  unfold guardedRead
  split
  · exact (beginAccess_keeps s).trans (requestRead_keeps offset e l memory _)
  split
  · exact (beginAccess_keeps s).trans (servedRead_keeps page offset l _)
  · exact passRead_keeps _ e memory s

theorem busWrite_keeps (page offset : Nat) (w : BusWrite) (s : State) : Keeps A s (busWrite page offset w s) := by
  unfold busWrite
  split
  · exact passWrite_keeps _ w s
  · exact guardedWrite_keeps page offset w s

theorem busRead_keeps (page offset : Nat) (e : ByteEnables) (l : Level) (memory : Word) (s : State) :
    Keeps A s (busRead page offset e l memory s) := by
  unfold busRead
  split
  · exact passRead_keeps _ e memory s
  · exact guardedRead_keeps page offset e l memory s

theorem busAccess_keeps (a : Access) (s : State) : Keeps A s (busAccess a s) := by
  unfold busAccess
  split
  · split
    · exact passWrite_keeps _ _ s
    · exact guardedWrite_keeps _ _ _ s
  split
  · split
    · exact passRead_keeps _ _ _ s
    · exact guardedRead_keeps _ _ _ _ _ s
  · exact .refl A s

/-- An access part-way through a moment's submissions keeps what it keeps at their end. -/
theorem partWay_keeps {access : State → State} (h : ∀ s, Keeps A s (access s)) (later : Nat) (s : State) :
    Keeps A s (partWay later access s) := by
  unfold partWay
  split
  · exact h s
  · rename_i n _
    have hr : Keeps A s { s with queue := s.queue.rewind (n + 1) } := queue_keeps fun k => k.rewind _
    exact (hr.trans (h _)).trans (queue_keeps fun k => k.stores _)

end

end Sys2Proof.Machine

/-! PROOFS. The ranges over the parts of a decisecond event, the completion of a commit and the resets (R10 to R12, R16, R20, R26, R47, R54,
R167, R172, R175). -/

namespace Sys2Proof.Machine

open Sys2Proof

-- The many small goals of `Keeps` are checked in turn: each one in flight holds a thread.
set_option Elab.async false

/-! ### The tables behind the timers -/

/-- Tables once committed are valid. -/
def TableStore.sound (x : TableStore) : Prop := x.nv.valid = true → x.nv.active.firstViolation = none

/-- Tables once committed are valid, and outside the flash modes there are some. -/
structure TablesSound (s : State) : Prop where
  store : s.store.sound
  mode : s.mode.mode.flashing = false → s.store.nv.valid = true

/-- What valid tables bound the mode timers and the liveness timer by (R169). -/
theorem timing_of_valid {t : Tables} (h : t.firstViolation = none) : t.timing.startFlash.toNat ≤ 600 ∧ t.timing.allStop.toNat ≤ 100 ∧
    t.timing.flashEntry.toNat ≤ 100 ∧ t.timing.liveness.toNat ≤ 100 := by
  obtain ⟨-, ⟨-, h1, -, h2, -, h3, -, h4, -⟩, -⟩ := (validTablesMeetTheConditions t).1.1 h
  exact ⟨h1, h2, h3, h4⟩

/-- What valid tables bound a configured group's timers by (R3). -/
theorem times_of_valid {t : Tables} (h : t.firstViolation = none) {g : GroupNo} (hg : g.val < t.timing.groupCount.toNat) :
    (t.groups.get g).prepareTime.toNat ≤ 30 ∧ (t.groups.get g).clearingTime.toNat ≤ 200 := by
  obtain ⟨-, -, -, hr, -⟩ := (validTablesMeetTheConditions t).1.1 h
  obtain ⟨-, -, ⟨-, -, h1, -, h2, -⟩ | ⟨-, h1, -, h2, -⟩ | ⟨-, h1, -, h2, -⟩⟩ := hr g hg
  · omega
  · rw [h1]; exact ⟨Nat.zero_le _, h2⟩
  · rw [h1]; exact ⟨Nat.zero_le _, by omega⟩

theorem times_of_sound {s : State} (h : s.store.sound) {g : GroupNo} (hg : s.configured g = true) :
    s.prepareTime g ≤ 30 ∧ s.clearingTime g ≤ 200 := by
  obtain ⟨hv, hc⟩ := (configured_iff s g).1 hg
  exact times_of_valid (h hv) hc

/-! ### The sequencer's step -/

theorem counted_inRange (s : State) (p : EventParts) (g : GroupNo) {x : Group} (h : groupInRange x) : groupInRange (counted s p g x) := by
  obtain ⟨h1, h2, h3, h4, h5⟩ := h
  refine ⟨h1, h2, h3, ?_, ?_⟩
  · show nextElapsed p g x ≤ 65535
    unfold nextElapsed; split
    · exact h4
    · exact satAdd_le _ _
  · show nextAge p g _ x ≤ 65535
    unfold nextAge; split
    · split
      · exact h5
      · exact satAdd_le _ _
    · exact Nat.zero_le _

section

variable {x : Group}

theorem advanceTimer_prepare (h : x.state = .prepare) : advanceTimer x = { x with prepareTimer := x.prepareTimer + 1 } := by
  obtain ⟨st⟩ := x; obtain rfl : st = .prepare := h; rfl

theorem advanceTimer_go (h : x.state = .go) : advanceTimer x = { x with goTimer := satAdd x.goTimer Config.wordLimit } := by
  obtain ⟨st⟩ := x; obtain rfl : st = .go := h; rfl

theorem advanceTimer_clearing (h : x.state = .clearing) : advanceTimer x = { x with clearingTimer := x.clearingTimer + 1 } := by
  obtain ⟨st⟩ := x; obtain rfl : st = .clearing := h; rfl

theorem advanceTimer_idle (h1 : x.state ≠ .prepare) (h2 : x.state ≠ .go) (h3 : x.state ≠ .clearing) : advanceTimer x = x := by
  unfold advanceTimer
  split
  · contradiction
  · contradiction
  · contradiction
  · rfl

end

/-- The advance and the expiry of a group's timer: where it does not expire it is short of its limit (R10, R16, R18, R20). -/
theorem expireTimer_keeps {g : GroupNo} {s : State} (hc : s.configured g = true) :
    Keeps s.store.sound s (expireTimer g (s.setGroup g (advanceTimer (s.group g)))) := by
  have hp := (s.record g).prepareTime.isLt
  have hl := (s.record g).clearingTime.isLt
  have hx : (s.setGroup g (advanceTimer (s.group g))).group g = advanceTimer (s.group g) := State.setGroup_group_self _ _ _
  unfold expireTimer
  rw [hx, advanceTimer_state]
  split
  · rename_i hst
    rw [advanceTimer_prepare hst]
    split
    · refine Keeps.trans (Keeps.trans ?_ (clearCalls_keeps _ _)) (holdRule_keeps g _)
      exact enterGroup_setGroup_keeps g .go none _ fun h => h.2.2.2.1
    · rename_i hn
      have hn : (s.group g).prepareTimer + 1 < s.prepareTime g := Nat.lt_of_not_le hn
      refine setGroup_keeps (fun ⟨_, h⟩ => ⟨?_, h⟩) fun a ⟨_, h⟩ => ⟨?_, h⟩
      · exact Nat.le_of_lt_succ (hn.trans hp)
      · exact (Nat.le_of_lt hn).trans (times_of_sound a hc).1
  · rename_i hst
    rw [advanceTimer_go hst]
    split
    · exact enterGroup_setGroup_keeps g .clearing (some 0) false fun _ => Nat.zero_le _
    · exact setGroup_keeps (fun ⟨h1, _, h⟩ => ⟨h1, satAdd_le _ _, h⟩) fun _ => id
  · rename_i hst
    rw [advanceTimer_clearing hst]
    split
    · refine Keeps.trans ?_ (startStoppedTimer_keeps _)
      exact enterGroup_setGroup_keeps g .stop none false fun h => h.2.2.2.1
    · rename_i hn
      have hn : (s.group g).clearingTimer + 1 < s.clearingTime g := Nat.lt_of_not_le hn
      refine setGroup_keeps (fun ⟨h1, h2, _, h⟩ => ⟨h1, h2, ?_, h⟩) fun a ⟨h, _⟩ => ⟨h, ?_⟩
      · exact Nat.le_of_lt_succ (hn.trans hl)
      · exact (Nat.le_of_lt hn).trans (times_of_sound a hc).2
  · rename_i h1 h2 h3
    rw [advanceTimer_idle h1 h2 h3]
    exact setGroup_keeps id fun _ => id

theorem stepGroup_keeps (p : EventParts) {g : GroupNo} {s : State} (hc : s.configured g = true) :
    Keeps s.store.sound s (stepGroup p g s) := by
  have h : Keeps s.store.sound s (advanceCounts p g s) :=
    setGroup_keeps (counted_inRange s p g) fun _ => id
  unfold stepGroup
  dsimp only
  split
  · exact h
  · exact h.trans (expireTimer_keeps (s := advanceCounts p g s) hc)

theorem sequencerStep_keeps (s : State) : Keeps s.store.sound s (sequencerStep s) := by
  have h : ∀ p, Keeps s.store.sound s { s with parts := p } := fun _ => {}
  unfold sequencerStep
  refine .ite fun _ => (h _).trans (foldl_keeps_of (I := fun t => t.store = s.store) (fun t g ht => ?_) (fun t g ht => ?_) _ _ rfl)
  · exact (sweepTurn_moves (stepGroup_moves s.parts) t g).1.store.trans ht
  · refine .ite fun hc => ?_
    rw [← ht]
    exact stepGroup_keeps s.parts hc

/-! ### The evaluation -/

/-- A term is at most the intergreen, one byte (R25). -/
theorem term_le {s : State} {j i : GroupNo} {n : Nat} (h : term s j i = some n) : n ≤ 255 := by
  have hb : s.active.intergreenOf j i < 256 := ((s.active.intergreen.get j).get i).isLt
  unfold term at h
  split at h
  · cases h
  · obtain rfl := Option.some.inj h; omega

/-- A wait is at most the largest intergreen, one byte, or BLOCKED (R26). -/
theorem waitOf_le (s : State) (i : GroupNo) : waitOf s i ≤ 255 ∨ waitOf s i = 65535 := by
  unfold waitOf
  refine List.foldlRecOn (motive := fun w => w ≤ 255 ∨ w = 65535) _ _ (.inl (Nat.zero_le _)) fun w hw j _ => ?_
  split
  · exact .inr rfl
  · rename_i n hn
    have := term_le hn
    omega

theorem reportedWait_le (s : State) (granted : List GroupNo) (i : GroupNo) :
    reportedWait s granted i ≤ 255 ∨ reportedWait s granted i = 65535 := by
  unfold reportedWait
  split
  · split
    · exact .inr rfl
    · exact waitOf_le s i
  · exact .inr rfl

theorem evaluate_keeps {A : Prop} (s : State) : Keeps A s (evaluate s) := by
  have h : ∀ (a : Arbiter) (p : EventParts), (∀ g, a.waits.get g ≤ 255 ∨ a.waits.get g = 65535) →
      Keeps A s { s with arbiter := a, parts := p } := fun _ _ ha => { waits := fun _ => ha }
  have hw : ∀ g, (reported s).waits.get g ≤ 255 ∨ (reported s).waits.get g = 65535 := fun g => by
    simp only [reported, vector_get_ofFn]; exact reportedWait_le s _ g
  unfold evaluate
  exact .ite fun _ => (h _ _ hw).trans (forGroups_keeps (fun g s => .ite fun _ => grant_keeps g s) _)

end Sys2Proof.Machine

/-! PROOFS. The ranges over the mode controller's parts of a decisecond event, the completion of a commit and the clock (R1, R47, R54, R59, R61,
R172, R175). -/

namespace Sys2Proof.Machine

open Sys2Proof

-- The many small goals of `Keeps` are checked in turn: each one in flight holds a thread.
set_option Elab.async false

/-! ### The mode timer -/

section

variable {s : State}

/-- The tables' soundness does not speak of anything else. -/
theorem TablesSound.of_store {t : State} (h : TablesSound s) (hs : t.store = s.store)
    (hm : t.mode.mode.flashing = false → s.store.nv.valid = true) : TablesSound t :=
  ⟨hs ▸ h.store, hs ▸ hm⟩

theorem startFlashLimit_le (s : State) : startFlashLimit s ≤ 65535 ∧ (s.store.sound → startFlashLimit s ≤ 600) := by
  have hw := s.active.timing.startFlash.isLt
  unfold startFlashLimit
  split
  · rename_i hv
    exact ⟨Nat.le_of_lt_succ hw, fun h => (timing_of_valid (h hv)).1⟩
  · exact ⟨by decide, fun _ => by decide⟩

theorem startFlashEnd_keeps {A : Prop} (s : State) : Keeps A s (startFlashEnd s) := by
  unfold startFlashEnd
  split
  · exact (setNormalPending_keeps false s).trans (allStopEntry_keeps _)
  · exact changeMode_keeps .flash .reset (Keeps.refl A) s

/-- The mode timer's advance is short of its limit where it does not expire (R47, R48, R52, R57). -/
theorem advanceModeTimer_keeps (s : State) : Keeps (TablesSound s) s (advanceModeTimer s) := by
  have ha := s.active.timing.allStop.isLt
  have hf := s.active.timing.flashEntry.isLt
  have valid : TablesSound s → s.mode.mode.flashing = false → s.active.firstViolation = none := fun h hm => h.store (h.mode hm)
  unfold advanceModeTimer
  split
  · split
    · exact startFlashEnd_keeps s
    · rename_i hn
      have hn := Nat.le_of_lt (Nat.lt_of_not_le hn)
      exact {
        modeTimers := fun ⟨_, h⟩ => ⟨hn.trans (startFlashLimit_le s).1, h⟩
        modeFits := fun a ⟨_, h⟩ => ⟨hn.trans ((startFlashLimit_le s).2 a.store), h⟩ }
  · rename_i hm
    split
    · exact normalEntry_keeps s
    · rename_i hn
      have hn := Nat.le_of_lt (Nat.lt_of_not_le hn)
      exact {
        modeTimers := fun ⟨h1, _, h⟩ => ⟨h1, hn.trans (Nat.le_of_lt_succ ha), h⟩
        modeFits := fun a ⟨h1, _, h⟩ => ⟨h1, hn.trans (timing_of_valid (valid a (by rw [hm]; rfl))).2.1, h⟩ }
  · rename_i hm
    split
    · exact flashEntry_keeps _ s
    · rename_i hn
      have hn := Nat.le_of_lt (Nat.lt_of_not_le hn)
      exact {
        modeTimers := fun ⟨h1, h2, _⟩ => ⟨h1, h2, hn.trans (Nat.le_of_lt_succ hf)⟩
        modeFits := fun a ⟨h1, h2, _⟩ => ⟨h1, h2, hn.trans (timing_of_valid (valid a (by rw [hm]; rfl))).2.2.1⟩ }
  · exact .refl _ s

/-- The mode timer's expiries leave the flash modes on valid tables alone (R48, R52). -/
theorem advanceModeTimer_tablesSound (h : TablesSound s) : TablesSound (advanceModeTimer s) := by
  unfold advanceModeTimer
  split
  · split
    · unfold startFlashEnd
      split
      · rename_i hv
        exact h.of_store (allStopEntry_leaves _).2.2.1 fun _ => hv.2.1
      · exact h.of_store rfl fun hm => nomatch hm
    · exact h.of_store rfl h.mode
  · rename_i hm
    split
    · have k := normalEntry_move s
      exact h.of_store k.store fun _ => h.mode (by rw [hm]; rfl)
    · exact h.of_store rfl h.mode
  · split
    · have k := flashEntry_move s.mode.cause s
      exact h.of_store k.store fun hm => by rw [k.modeMode] at hm; cases hm
    · exact h.of_store rfl h.mode
  · exact h

/-- The taking of a part of the event leaves the tables. -/
theorem Keeps.of_parts {p : EventParts} {t : State} (h : Keeps (TablesSound { s with parts := p }) { s with parts := p } t) :
    Keeps (TablesSound s) s t := by
  have taken : Keeps (TablesSound s) s { s with parts := p } := {}
  exact taken.trans (h.of_imp fun a => ⟨a.store, a.mode⟩)

theorem modeTimerPart_keeps (s : State) : Keeps (TablesSound s) s (modeTimerPart s) := by
  unfold modeTimerPart
  refine .ite fun _ => ?_
  dsimp only
  split
  · exact .of_parts (advanceModeTimer_keeps _)
  · exact .of_parts (.refl _ _)

theorem modeTimerPart_tablesSound (h : TablesSound s) : TablesSound (modeTimerPart s) := by
  unfold modeTimerPart
  dsimp only
  split
  · split
    · exact advanceModeTimer_tablesSound (h.of_store rfl h.mode)
    · exact h.of_store rfl h.mode
  · exact h

/-! ### The liveness timer -/

theorem advanceLiveness_keeps (hm : s.mode.mode.supervised = true) : Keeps (TablesSound s) s (advanceLiveness s) := by
  have hl := s.active.timing.liveness.isLt
  have hf : s.mode.mode.flashing = false := by
    revert hm; cases s.mode.mode <;> simp [Mode.supervised, Mode.flashing]
  unfold advanceLiveness
  dsimp only
  split
  · have h : Keeps (TablesSound s) s { s with store := { s.store with nv := { s.store.nv with
        livenessLosses := satAdd s.store.nv.livenessLosses Config.counterLimit } } } :=
      { nv := ⟨id, fun _ => id, fun ⟨h1, h2, h3⟩ =>
          ⟨⟨h1, satAdd_le _ _, h3⟩, Nat.le_refl _, le_satAdd h2, Nat.le_refl _, Nat.le_refl _⟩⟩ }
    exact h.trans (toFlashEntry_keeps _ _)
  · rename_i hn
    have hn := Nat.le_of_lt (Nat.lt_of_not_le hn)
    exact {
      liveness := fun _ => hn.trans (Nat.le_of_lt_succ hl)
      livenessFits := fun a _ => hn.trans (timing_of_valid (a.store (a.mode hf))).2.2.2 }

theorem livenessPart_keeps (s : State) : Keeps (TablesSound s) s (livenessPart s) := by
  unfold livenessPart
  refine .ite fun _ => ?_
  dsimp only
  split
  · rename_i hr
    refine .of_parts (advanceLiveness_keeps ?_)
    simp only [livenessRuns, Bool.and_eq_true] at hr
    exact hr.1.2
  · exact .of_parts (.refl _ _)

/-! ### The inputs -/

section

variable {A : Prop}

theorem holdPart_keeps (line : Fin 2) (x : Bool) (s : State) : Keeps A s (holdPart line x s) := by
  have taken : Keeps A s (holdTaken line s) := by unfold holdTaken; split <;> exact {}
  have filter : ∀ (f : Filter) (t : State), Keeps A t (setHoldFilter line f t) := fun _ _ => by
    unfold setHoldFilter; split <;> exact {}
  have edge : ∀ (b : Bool) (t : State), Keeps A t (holdEdge line b t) := fun b t => by
    unfold holdEdge
    dsimp only
    split
    · exact (submit_keeps _ _ _ t).trans (holdSweep_keeps _)
    · exact submit_keeps _ _ _ t
  unfold holdPart sampleHold
  refine .ite fun _ => taken.trans ?_
  dsimp only
  split
  · exact filter _ _
  · exact (filter _ _).trans (edge _ _)

theorem switchPart_keeps (closed : Bool) (s : State) : Keeps A s (switchPart closed s) := by
  have taken : Keeps A s { s with parts := { s.parts with switch := false } } := {}
  have filter : ∀ (f : Filter) (t : State), Keeps A t { t with mode := { t.mode with switch := f } } := fun _ _ => {}
  unfold switchPart sampleSwitch
  refine .ite fun _ => taken.trans ?_
  dsimp only
  split
  · exact (filter _ _).trans (flashEntry_keeps _ _)
  · exact filter _ _

end

theorem modeStep_keeps (h0 h1 closed : Bool) (s : State) : Keeps (TablesSound s) s (modeStep h0 h1 closed s) :=
  ((((modeTimerPart_keeps s).trans ((livenessPart_keeps _).of_imp modeTimerPart_tablesSound)).trans (holdPart_keeps _ _ _)).trans
    (holdPart_keeps _ _ _)).trans (switchPart_keeps _ _)

end

section

variable {A : Prop}

/-! ### The clock, the time mark and the frame event -/

theorem advanceClock_keeps (s : State) : Keeps A s (advanceClock s) := by
  have h : Keeps A s { s with clock := s.clock + 1, parts := EventParts.due, queue := s.queue.endMoment } := { queue := QueueInv.endMoment }
  exact h.trans (lamps_keeps id)

theorem markPart_keeps (s : State) : Keeps A s (markPart s) := by
  have h : Keeps A s { s with parts := { s.parts with mark := false } } := {}
  unfold markPart
  refine .ite fun _ => ?_
  dsimp only
  split
  · exact h.trans (submit_keeps _ _ _ _)
  · exact h

/-! ### The completion of a commit -/

theorem unconfigureGroup_keeps (g : GroupNo) (s : State) : Keeps A s (unconfigureGroup g s) := by
  have h : Keeps A s (s.setGroup g Group.unconfigured) :=
    setGroup_keeps (fun _ => groupInRange_entered (Nat.le_refl _)) fun _ _ => timersFit_entered
  unfold unconfigureGroup
  dsimp only
  split
  · exact h
  · exact h.trans (submit_keeps _ _ _ _)

theorem configureGroup_keeps (g : GroupNo) (s : State) : Keeps A s (configureGroup g s) := by
  have h : Keeps A s (if s.mode.mode = .dark then s else orderGroup .flashing g s) := by
    split
    · exact .refl A s
    · exact orderGroup_keeps .flashing g s
  unfold configureGroup
  exact h.trans (.ite fun _ => requestSet_keeps g _)

theorem applyGroupCount_keeps (was : GroupNo → Bool) (s : State) : Keeps A s (applyGroupCount was s) := by
  refine foldl_keeps (fun s g => ?_) _ s
  split
  · split
    · exact .refl A s
    · exact unconfigureGroup_keeps g s
  · exact .ite fun _ => configureGroup_keeps g s

theorem storeNewTables_keeps (s : State) : Keeps A s (storeNewTables s) where
  nv := ⟨id, fun _ => id, fun ⟨h1, h2, h3, h4⟩ =>
    ⟨⟨h1, h2, satAdd_le _ _, h4⟩, Nat.le_refl _, Nat.le_refl _, le_satAdd h3, Nat.le_refl _⟩⟩

theorem applySigns_keeps (old s : State) : Keeps A s (applySigns old s) := by
  have h : ∀ (v : Vector Sign 16) (p : Option Poll), (∀ r, (s.link.signs.get r).missRun ≤ 255 → (v.get r).missRun ≤ 255) →
      Keeps A s { s with link := { s.link with signs := v, poll := p } } := fun _ _ hv => { signs := hv }
  refine h _ _ fun r hr => ?_
  rw [vector_get_ofFn]
  split
  · exact hr
  · exact Nat.zero_le _

theorem applyCalls_keeps (was : GroupNo → Bool) (s : State) : Keeps A s (applyCalls was s) := {}

theorem completeCommit_keeps (s : State) : Keeps A s (completeCommit s) := by
  have h : Keeps A s (commitFollowed s) :=
    ((((storeNewTables_keeps s).trans (applySigns_keeps s _)).trans (submit_keeps _ _ _ _)).trans (applyGroupCount_keeps _ _)).trans
      (applyCalls_keeps _ _)
  rw [completeCommit_eq]
  unfold actOnPending
  exact h.trans (.ite fun _ => (setNormalPending_keeps false _).trans (allStopEntry_keeps _))

end

end Sys2Proof.Machine

/-! PROOFS. Every step keeps the ranges, the queue's shape and the non-volatile contents (R166, R167, R175): every command but a reset by
what its operations keep, and a reset by the values it sets back. -/

namespace Sys2Proof.Machine

open Sys2Proof

-- The many small goals of `Keeps` are checked in turn: each one in flight holds a thread.
set_option Elab.async false

/-! ### Commands that are accesses -/

/-- A command that is a write to a word of the guarded area is that write, taken at the end of a moment's submissions or part-way through
them. -/
theorem exec_write {c : Instr} {page offset : Nat} {w : BusWrite} (h : writeOf c = some (page, offset, w)) (s : State) :
    ∃ n, exec c s = .next (partWay n (busWrite page offset w) s) := by
  have part : ∀ {p o n : Nat} {x : BusWrite}, writeOf c = some (p, o, x) → exec c s = .next (partWay n (busWrite p o x) s) →
      ∃ n, exec c s = .next (partWay n (busWrite page offset w) s) := by
    intro p o n x e hx
    obtain ⟨rfl, rfl, rfl⟩ : p = page ∧ o = offset ∧ x = w := by simpa [e] using h
    exact ⟨n, hx⟩
  have whole : ∀ {p o : Nat} {x : BusWrite}, writeOf c = some (p, o, x) → exec c s = .next (busWrite p o x s) →
      ∃ n, exec c s = .next (partWay n (busWrite page offset w) s) := fun e hx => part (n := 0) e (by rw [partWay_zero]; exact hx)
  cases c
  case enableReaderB | disableReaderB => exact part rfl rfl
  case goMaskWrite | setAlias | clearAlias | toggleAlias | modeWordFlash | modeWordNormal | modeWordDark | modeWordValueRefused |
      timeMarkWordWrite | detectorSelectWrite | detectorKindWrite | detectorSettingsWrite | callClearAlias | signImageWrite |
      stagingWrite | lockWrite | lockFreeze | commitRequest | serviceWrite | servedWrite =>
    exact whole rfl rfl
  all_goals simp [writeOf, requestWriteOf, maskWriteOf, modeWordWriteOf] at h

/-- A command that is a read of a word of the guarded area is that read, at some access level, likewise. -/
theorem exec_read {c : Instr} {page offset : Nat} {e : ByteEnables} {memory : Word} (h : readOf c = some (page, offset, e, memory))
    (s : State) : ∃ n l, exec c s = .next (partWay n (busRead page offset e l memory) s) := by
  have part : ∀ {p o n : Nat} {d : ByteEnables} {l : Level} {m : Word}, readOf c = some (p, o, d, m) →
      exec c s = .next (partWay n (busRead p o d l m) s) → ∃ n l, exec c s = .next (partWay n (busRead page offset e l memory) s) := by
    intro p o n d l m k hx
    obtain ⟨rfl, rfl, rfl, rfl⟩ : p = page ∧ o = offset ∧ d = e ∧ m = memory := by simpa [k] using h
    exact ⟨n, l, hx⟩
  cases c
  case requestBaseRead => exact part (n := 0) rfl (by rw [partWay_zero]; rfl)
  case take r _ _ _ =>
    obtain ⟨_ | _, _⟩ := r <;> exact part rfl rfl
  case lowWordRead => exact part rfl rfl
  all_goals simp [readOf] at h

theorem exec_write_keeps {A : Prop} {c : Instr} {page offset : Nat} {w : BusWrite} (h : writeOf c = some (page, offset, w)) (s : State) :
    ∃ t, exec c s = .next t ∧ Keeps A s t := by
  obtain ⟨n, hn⟩ := exec_write h s
  exact ⟨_, hn, partWay_keeps (busWrite_keeps page offset w) n s⟩

theorem exec_read_keeps {A : Prop} {c : Instr} {page offset : Nat} {e : ByteEnables} {memory : Word}
    (h : readOf c = some (page, offset, e, memory)) (s : State) : ∃ t, exec c s = .next t ∧ Keeps A s t := by
  obtain ⟨n, l, hn⟩ := exec_read h s
  exact ⟨_, hn, partWay_keeps (busRead_keeps page offset e l memory) n s⟩

/-! ### Every command but a reset -/

/-- The command asserts or ends a reset. -/
def isReset : Instr → Bool
  | .resetAsserted _ => true
  | .powerLoss => true
  | .resetEnd _ _ _ => true
  | _ => false

theorem exec_keeps {c : Instr} (hc : isReset c = false) (s : State) : ∃ t, exec c s = .next t ∧ Keeps (TablesSound s) s t := by
  have sequencer : Keeps (TablesSound s) s (sequencerStep s) := (sequencerStep_keeps s).of_imp TablesSound.store
  cases c
  case resetAsserted | powerLoss | resetEnd => cases hc
  case decisecondEvent => 
    refine ⟨_, rfl, ?_⟩
    split
    · exact .refl _ s
    · exact advanceClock_keeps s
  case groupSequencerStep => exact ⟨_, rfl, sequencer⟩
  case prepareExpiry | goTimerReachesMg | clearingExpiry => exact ⟨_, rfl, .ite fun _ => sequencer⟩
  case evaluation => exact ⟨_, rfl, evaluate_keeps s⟩
  case modeControllerStep => exact ⟨_, rfl, modeStep_keeps _ _ _ s⟩
  case startFlashExpiry | allStopExpiry | flashEntryTimerExpiry => exact ⟨_, rfl, .ite fun _ => modeTimerPart_keeps s⟩
  case livenessExpiry => exact ⟨_, rfl, .ite fun _ => livenessPart_keeps s⟩
  case hold => exact ⟨_, rfl, .ite fun _ => holdPart_keeps _ _ s⟩
  case commissioningSwitchChange => exact ⟨_, rfl, .ite fun _ => switchPart_keeps _ s⟩
  case lampSample => exact ⟨_, rfl, lampPart_keeps _ s⟩
  case conflict | uncommandedGo | redOut | lampFail => exact ⟨_, rfl, .ite fun _ => lampPart_keeps _ s⟩
  case detectorSample => exact ⟨_, rfl, detectorSample_keeps _ s⟩
  case activation | deactivation | detCount => exact ⟨_, rfl, .ite fun _ => detectorSample_keeps _ s⟩
  case detectorStep => exact ⟨_, rfl, detectorStep_keeps s⟩
  case stuckOn | stuckOff => exact ⟨_, rfl, .ite fun _ => detectorStep_keeps s⟩
  case frameEvent =>
    have taken : Keeps (TablesSound s) s { s with parts := { s.parts with signs := false } } := {}
    exact ⟨_, rfl, .ite fun _ => taken.trans (frameEvent_keeps _)⟩
  case goodReply => exact ⟨_, rfl, goodReply_keeps _ s⟩
  case replyMiss => exact ⟨_, rfl, closeWindow_keeps s⟩
  case signSilent => exact ⟨_, rfl, .ite fun _ => closeWindow_keeps s⟩
  case channelByteStart => exact ⟨_, rfl, channelByteStart_keeps s⟩
  case replyWindowOpen => exact ⟨_, rfl, openWindow_keeps s⟩
  case timeMark => exact ⟨_, rfl, markPart_keeps s⟩
  case commitCompletion => exact ⟨_, rfl, .ite fun _ => completeCommit_keeps s⟩
  case passedAccess => exact ⟨_, rfl, busAccess_keeps _ s⟩
  case refusalLimitReached => exact ⟨_, rfl, .ite fun _ => busWrite_keeps _ _ _ s⟩
  case requestBaseRead | lowWordRead => exact exec_read_keeps rfl s
  case take => exact exec_read_keeps rfl s
  all_goals exact exec_write_keeps rfl s

/-! ### The resets -/

/-- A state set back on kept non-volatile contents. -/
theorem SetBack.invariants {A : Prop} {s t : State} (h : SetBack t) (hn : s.store.nv.Kept t.store.nv) : InvariantsKept A s t where
  range := fun hs => h.rangeInv (hn.counters hs.counters).1
  queue := fun _ => h.queueInv
  timers := fun _ _ => h.timersInRange
  nv := hn

theorem beginReset_invariants {A : Prop} (r : ResetAssertion) (s : State) : InvariantsKept A s (beginReset r s) := by
  obtain ⟨kind, _ | p⟩ := r
  · exact (setBack_assertReset kind s).invariants (.refl _)
  · have h := setBack_assertReset kind (accessDone p s)
    have hb : SetBack { assertReset kind (accessDone p s) with bus := completedPins p s } :=
      ⟨h.groups, h.arbiter, h.mode, h.page, h.lamps, h.detectors, h.link, h.queue⟩
    refine hb.invariants ?_
    show s.store.nv.Kept (accessDone p s).store.nv
    unfold accessDone
    split
    · exact (busAccess_keeps (A := A) p.access s).nv
    · exact .refl _

/-- The state whose lock flags the end of a reset clears where it does (R167). -/
def locksCleared (kind : ResetKind) (closed : Bool) (s : State) : State :=
  { s with store := { s.store with nv := clearLocks kind closed s.store.nv } }

/-- All the end of a reset can do: nothing where the reset was not held, the other reset held on, or the device leaves reset (R162). -/
theorem endReset_cases (kind : ResetKind) (straps : BitVec 4) (closed : Bool) (s : State) :
    endReset kind straps closed s = s ∨
    (∃ a b, endReset kind straps closed s = { locksCleared kind closed s with powerOnHeld := a, externalHeld := b }) ∨
    endReset kind straps closed s = leaveReset straps (clearLocks kind closed s.store.nv) s := by
  unfold endReset
  dsimp only
  split_ifs
  · exact .inl rfl
  · exact .inr (.inl ⟨_, _, rfl⟩)
  · exact .inr (.inr rfl)

theorem endReset_invariants {A : Prop} (kind : ResetKind) (straps : BitVec 4) (closed : Bool) (s : State) :
    endReset kind straps closed s = s ∨ InvariantsKept A (locksCleared kind closed s) (endReset kind straps closed s) := by
  rcases endReset_cases kind straps closed s with h | ⟨a, b, h⟩ | h
  · exact .inl h
  · rw [h]
    exact .inr ⟨fun h => ⟨h.groups, h.waits, h.detectors, h.select, h.signs, h.cursor, h.refusals, h.counters, h.modeTimers, h.liveness,
      h.lamps⟩, id, fun _ h => ⟨h.groups, h.mode, h.liveness⟩, .refl _⟩
  · rw [h]
    exact .inr ((setBack_leaveReset straps _ s).invariants (.refl _))

theorem locksCleared_range {kind : ResetKind} {closed : Bool} {s : State} (h : RangeInv s) : RangeInv (locksCleared kind closed s) where
  groups := h.groups
  waits := h.waits
  detectors := h.detectors
  select := h.select
  signs := h.signs
  cursor := h.cursor
  refusals := h.refusals
  counters := by show countersInRange (clearLocks kind closed s.store.nv); rw [clearLocks_eq]; exact h.counters
  modeTimers := h.modeTimers
  liveness := h.liveness
  lamps := h.lamps

/-- The lock flags fall at the end of a power-on reset with the switch closed and the freeze clear alone (R167). -/
theorem clearLocks_cases (kind : ResetKind) (closed : Bool) (nv : NonVolatile) :
    clearLocks kind closed nv = nv ∨ (kind = .powerOn ∧ closed = true ∧ nv.freeze = false) := by
  unfold clearLocks
  split
  · rename_i h; exact .inr h
  · exact .inl rfl

/-! ### The step -/

/-- What the statement asks of a step, the command before it named. -/
structure StepLaw (s t : State) : Prop where
  range : RangeInv t
  queue : QueueInv t.queue
  timers : SafetyInv s → TimersInRange s → TimersInRange t
  freeze : s.store.nv.freeze = true → t.store.nv.freeze = true
  locks : ∀ k, s.store.nv.lockFlags.getLsbD k = true → t.store.nv.lockFlags.getLsbD k = true ∨
    (s.store.nv.freeze = false ∧ ∃ straps rest, s.pending = .resetEnd .powerOn straps true :: rest)
  counters : s.store.nv.faultEntries ≤ t.store.nv.faultEntries ∧ s.store.nv.livenessLosses ≤ t.store.nv.livenessLosses ∧
    s.store.nv.commits ≤ t.store.nv.commits ∧ s.store.nv.service ≤ t.store.nv.service

/-- The waiting commands are no part of what the invariants read. -/
theorem InvariantsKept.stepLaw {s t : State} {rest : List Instr} (hr : RangeInv s) (hq : QueueInv s.queue)
    (h : InvariantsKept (TablesSound { s with pending := rest }) { s with pending := rest } t) : StepLaw s t where
  range := h.range ⟨hr.groups, hr.waits, hr.detectors, hr.select, hr.signs, hr.cursor, hr.refusals, hr.counters, hr.modeTimers, hr.liveness,
    hr.lamps⟩
  queue := h.queue hq
  timers := fun hs ht => h.timers ⟨hs.tables, hs.configuredMode⟩ ⟨ht.groups, ht.mode, ht.liveness⟩
  freeze := h.nv.freeze
  locks := fun k hk => .inl (h.nv.locks k hk)
  counters := (h.nv.counters hr.counters).2

/-- The end of a reset keeps all but the lock flags, and clears those under R167's condition alone. -/
theorem endReset_stepLaw {s : State} (hr : RangeInv s) (hq : QueueInv s.queue) {kind : ResetKind} {straps : BitVec 4} {closed : Bool}
    {rest : List Instr} (hp : s.pending = .resetEnd kind straps closed :: rest) :
    StepLaw s (endReset kind straps closed { s with pending := rest }) := by
  rcases endReset_invariants (A := True) kind straps closed { s with pending := rest } with h | h
  · rw [h]
    exact InvariantsKept.stepLaw (rest := rest) hr hq (Keeps.refl _ _).invariants
  generalize endReset kind straps closed { s with pending := rest } = t at h ⊢
  have range : RangeInv (locksCleared kind closed { s with pending := rest }) := locksCleared_range ⟨hr.groups, hr.waits, hr.detectors,
    hr.select, hr.signs, hr.cursor, hr.refusals, hr.counters, hr.modeTimers, hr.liveness, hr.lamps⟩
  have nv : (locksCleared kind closed { s with pending := rest }).store.nv = clearLocks kind closed s.store.nv := rfl
  have cleared := clearLocks_eq kind closed s.store.nv
  refine ⟨h.range range, h.queue hq, fun _ ht => h.timers trivial ⟨ht.groups, ht.mode, ht.liveness⟩, fun hf => ?_, fun k hk => ?_, ?_⟩
  · refine h.nv.freeze ?_
    rw [nv, cleared]; exact hf
  · rcases clearLocks_cases kind closed s.store.nv with e | ⟨rfl, rfl, hf⟩
    · refine .inl (h.nv.locks k ?_)
      rw [nv, e]; exact hk
    · exact .inr ⟨hf, straps, rest, hp⟩
  · have hc := (h.nv.counters range.counters).2
    rw [nv, cleared] at hc
    exact hc

theorem step_stepLaw {s t : State} (hr : RangeInv s) (hq : QueueInv s.queue) (h : step s = .next t) : StepLaw s t := by
  unfold step at h
  split at h
  · obtain rfl := Host.Outcome.next.inj h
    exact InvariantsKept.stepLaw (rest := s.pending) hr hq (queue_keeps (s := s) QueueInv.endMoment).invariants
  · rename_i c rest hp
    rcases hc : isReset c with _ | _
    · obtain ⟨u, hu, hk⟩ := exec_keeps hc { s with pending := rest }
      obtain rfl := Host.Outcome.next.inj (hu.symm.trans h)
      exact hk.invariants.stepLaw hr hq
    · cases c
      case resetAsserted r =>
        obtain rfl := Host.Outcome.next.inj h
        exact (beginReset_invariants r _).stepLaw hr hq
      case powerLoss =>
        obtain rfl := Host.Outcome.next.inj h
        exact (beginReset_invariants ⟨.powerOn, none⟩ _).stepLaw hr hq
      case resetEnd =>
        obtain rfl := Host.Outcome.next.inj h
        exact endReset_stepLaw hr hq hp
      all_goals cases hc

/-- Settles O60: every step keeps what `StepLaw` says, by what each operation keeps and what a reset sets back. -/
theorem everyStepKeepsRangesAndCounters : Obligations.EveryStepKeepsRangesAndCounters := by
  unfold Obligations.EveryStepKeepsRangesAndCounters
  intro s t hr hq h
  have law := step_stepLaw hr hq h
  exact ⟨law.range, law.queue, law.timers, law.freeze, law.locks, law.counters⟩

end Sys2Proof.Machine

/-! PROOFS. A reset or a loss of supply (R22, R82, R161, R173): what it sets back, how it completes the access it finds in progress, and the
accesses made while it is held. -/

namespace Sys2Proof.Machine

open Sys2Proof

/-! ### The state set back -/

theorem assertReset_held (kind : ResetKind) (s : State) : (assertReset kind s).held = true := by
  cases kind <;> simp [State.held, assertReset]

/-- While a reset is held no line is driven and ATTN is low (R22, R158). -/
theorem held_dark {t : State} (h : t.held = true) : (∀ g line, t.lineOn g line = false) ∧ t.attn = false :=
  ⟨fun _ line => lineOn_of_off (drive_none (.inl h) line), by simp [State.attn, h]⟩

/-- A reset asserted over what an access leaves of the state: of its effects the non-volatile contents stay alone, and the free choices
taken (R82). -/
theorem assertReset_of_keeps {A : Prop} {s u : State} (h : Keeps A s u) (kind : ResetKind) : assertReset kind u =
    { State.reset with
      powerOnHeld := s.powerOnHeld || decide (kind = .powerOn)
      externalHeld := s.externalHeld || decide (kind = .external)
      store := ⟨u.store.nv, Tables.zero, false, .none⟩
      tap := ⟨s.tap.strap, 0b11001111011001⟩
      queue := { State.reset.queue with choices := u.queue.choices }
      pending := s.pending } := by
  unfold assertReset setBack
  rw [h.powerOnHeld, h.externalHeld, h.tap, h.pending]
  rfl

/-! ### The access in progress -/

theorem accessDone_keeps {A : Prop} (p : AccessInProgress) (s : State) : Keeps A s (accessDone p s) := by
  unfold accessDone
  exact .ite fun _ => busAccess_keeps p.access s

/-- What a PASSED access drives (R69, R72). -/
def passedPins (a : Access) : BusPins :=
  if a.writeStrobe then ⟨none, some ⟨true, a.addr, a.enables, a.data⟩⟩
  else if a.readStrobe then ⟨some a.memory, some ⟨false, a.addr, a.enables, 0⟩⟩ else ⟨none, none⟩

theorem passAccess_bus (a : Access) (s : State) : (passAccess a (beginAccess s)).bus = passedPins a := by
  unfold passedPins
  rcases passAccess_cases a (beginAccess s) with ⟨hw, h⟩ | ⟨hw, hr, h⟩ | ⟨hw, hr, h⟩
  · rw [h, hw]; rfl
  · rw [h, hw, hr]; rfl
  · rw [h, hw, hr]; rfl

/-- An access on which the device had not acted, a read, and a write that made no forwarded cycle are completed as PASSED ones (R82). -/
theorem completedPins_eq_passed {p : AccessInProgress} {s : State}
    (h : p.acted = false ∨ p.access.writeStrobe = false ∨ (accessDone p s).bus.cycle = none) : completedPins p s = passedPins p.access := by
  by_cases hp : p.acted = false ∨ p.access.writeStrobe = false
  · rw [completedPins_passed hp, passAccess_bus]
  · obtain ⟨ha, hw⟩ : p.acted = true ∧ p.access.writeStrobe = true := by simpa using hp
    have hc : (busAccess p.access s).bus.cycle = none := by simpa [ha, hw, accessDone] using h
    rw [completedPins, if_pos ⟨ha, hw⟩, hc, passAccess_bus]
    simp [passedPins, hw]

/-- A MIRRORED write whose forwarded cycle had begun is completed with it (R82). -/
theorem completedPins_eq_cycle {p : AccessInProgress} {s : State} {c : MemoryCycle} (ha : p.acted = true)
    (hw : p.access.writeStrobe = true) (hc : (accessDone p s).bus.cycle = some c) : completedPins p s = ⟨none, some c⟩ := by
  have hc : (busAccess p.access s).bus.cycle = some c := by simpa [accessDone, ha] using hc
  rw [completedPins, if_pos ⟨ha, hw⟩, hc]
  rfl

/-! ### Accesses while a reset is held -/

theorem partWay_held {s : State} (h : s.held = true) (later : Nat) (access : State → State) : partWay later access s = access s := by
  unfold partWay
  rw [h]; rfl

theorem writeReachesLimit_held {s : State} (h : s.held = true) (word : Nat) (w : BusWrite) : writeReachesLimit word w s = false := by
  simp [writeReachesLimit, h]

/-- Settles O3: a reset without and with an access in progress; and every access of a held device passed. -/
theorem assertedResetHoldsTheBlocks : Obligations.AssertedResetHoldsTheBlocks := by
  unfold Obligations.AssertedResetHoldsTheBlocks
  refine ⟨fun r s u hacted hnot => ?_, fun s hs => ⟨fun c page offset w hw => ?_, fun c page offset e memory hr => ?_, fun word w => ?_⟩⟩
  · obtain ⟨kind, _ | p⟩ := r
    · obtain rfl : u = s := hnot nofun
      obtain ⟨hl, ha⟩ := held_dark (assertReset_held kind u)
      refine ⟨assertReset kind u, rfl, ?_, ?_, fun _ => rfl, nofun, nofun, assertReset_held kind u, rfl, reset_group, hl, ha, rfl, rfl⟩
      · rintro rfl -; rfl
      · exact assertReset_of_keeps (Keeps.refl True u) kind
    · have hu : u = accessDone p s := by
        unfold accessDone
        split
        · rename_i ha
          exact (Host.Outcome.next.inj (hacted p rfl ha)).symm
        · rename_i ha
          refine hnot fun q hq => ?_
          obtain rfl := Option.some.inj hq
          simpa using ha
      obtain ⟨hl, ha⟩ := held_dark (t := beginReset ⟨kind, some p⟩ s) (assertReset_held kind (accessDone p s))
      refine ⟨beginReset ⟨kind, some p⟩ s, rfl, nofun, ?_, nofun, ?_, ?_, assertReset_held kind (accessDone p s), rfl, reset_group, hl, ha,
        rfl, rfl⟩
      · rw [beginReset_some, assertReset_of_keeps (accessDone_keeps (A := True) p s) kind, hu]
      · intro q hq h
        obtain rfl := Option.some.inj hq
        exact completedPins_eq_passed (hu ▸ h)
      · intro q c hq hqa hw hc
        obtain rfl := Option.some.inj hq
        exact completedPins_eq_cycle hqa hw (hu ▸ hc)
  · obtain ⟨n, hn⟩ := exec_write hw s
    rw [hn, partWay_held hs, busWrite_held hs]; rfl
  · obtain ⟨n, l, hn⟩ := exec_read hr s
    rw [hn, partWay_held hs, busRead_held hs]; rfl
  · show Host.Outcome.next (if writeReachesLimit word.val w s then _ else s) = _
    rw [writeReachesLimit_held hs]; rfl

end Sys2Proof.Machine

/-! PROOFS. The wait of a group (R25, R26). -/

namespace Sys2Proof.Machine

open Sys2Proof

theorem mem_conflictsOf (s : State) (i j : GroupNo) : j ∈ conflictsOf s i ↔ s.inConflict j i = true := by
  simp [conflictsOf]

/-- What is left of the intergreen from `j` to `i` (R25). -/
def State.remaining (s : State) (i j : GroupNo) : Nat := s.active.intergreenOf j i - (s.group j).elapsed

theorem term_active {s : State} {j : GroupNo} (i : GroupNo) (h : (s.group j).state.active = true) : term s j i = none := if_pos h

theorem term_inactive {s : State} {j : GroupNo} (i : GroupNo) (h : (s.group j).state.active = false) :
    term s j i = some (s.remaining i j) := if_neg (by simp [h])

theorem remaining_le (s : State) (i j : GroupNo) : s.remaining i j ≤ 255 := by
  have hb : s.active.intergreenOf j i < 256 := ((s.active.intergreen.get j).get i).isLt
  unfold State.remaining; omega

/-- A wait with one more conflicting group's term taken in (R26). -/
def withTerm (s : State) (i : GroupNo) (w : Nat) (j : GroupNo) : Nat :=
  match term s j i with
  | none => Config.wordLimit
  | some t => max w t

theorem waitOf_eq (s : State) (i : GroupNo) : waitOf s i = (conflictsOf s i).foldl (withTerm s i) 0 := rfl

theorem withTerm_active {s : State} {i j : GroupNo} (w : Nat) (h : (s.group j).state.active = true) : withTerm s i w j = 65535 := by
  rw [withTerm, term_active i h]; rfl

theorem withTerm_inactive {s : State} {i j : GroupNo} (w : Nat) (h : (s.group j).state.active = false) :
    withTerm s i w j = max w (s.remaining i j) := by
  rw [withTerm, term_inactive i h]

/-- A wait once BLOCKED stays so. -/
theorem withTerm_blocked (s : State) (i j : GroupNo) : withTerm s i 65535 j = 65535 := by
  rcases h : (s.group j).state.active with _ | _
  · rw [withTerm_inactive _ h]
    have := remaining_le s i j
    omega
  · exact withTerm_active _ h

theorem foldl_withTerm_blocked {s : State} {i : GroupNo} : ∀ {l : List GroupNo} (w : Nat),
    (w = 65535 ∨ ∃ j ∈ l, (s.group j).state.active = true) → l.foldl (withTerm s i) w = 65535
  | [], _, h => h.resolve_right (by simp)
  | a :: l, w, h => by
    refine foldl_withTerm_blocked (l := l) _ ?_
    rcases h with rfl | ⟨j, hj, ha⟩
    · exact .inl (withTerm_blocked s i a)
    · rcases List.mem_cons.1 hj with rfl | hj
      · exact .inl (withTerm_active w ha)
      · exact .inr ⟨j, hj, ha⟩

/-- With no active group among them the terms' largest is taken, and it is one of them or the value before. -/
theorem foldl_withTerm_largest {s : State} {i : GroupNo} : ∀ {l : List GroupNo} (w : Nat),
    (∀ j ∈ l, (s.group j).state.active = false) → w ≤ l.foldl (withTerm s i) w ∧
      (∀ j ∈ l, s.remaining i j ≤ l.foldl (withTerm s i) w) ∧
      (l.foldl (withTerm s i) w = w ∨ ∃ j ∈ l, l.foldl (withTerm s i) w = s.remaining i j)
  | [], _, _ => ⟨Nat.le_refl _, by simp, .inl rfl⟩
  | a :: l, w, h => by
    obtain ⟨hw, hl, hr⟩ := foldl_withTerm_largest (l := l) (withTerm s i w a) fun j hj => h j (List.mem_cons_of_mem _ hj)
    have ha : withTerm s i w a = max w (s.remaining i a) := withTerm_inactive w (h a List.mem_cons_self)
    have hm := ha.ge.trans hw
    rw [List.foldl_cons]
    refine ⟨(Nat.le_max_left ..).trans hm, fun j hj => ?_, ?_⟩
    · rcases List.mem_cons.1 hj with rfl | hj
      · exact (Nat.le_max_right ..).trans hm
      · exact hl j hj
    · rcases hr with hr | ⟨j, hj, hr⟩
      · rcases max_choice w (s.remaining i a) with hm | hm
        · exact .inl (by omega)
        · exact .inr ⟨a, List.mem_cons_self, by omega⟩
      · exact .inr ⟨j, List.mem_cons_of_mem _ hj, hr⟩

/-- A group is BLOCKED by a group in conflict with it that is in PREPARE or GO (R25, R26). -/
theorem waitOf_blocked {s : State} {j i : GroupNo} (hc : s.inConflict j i = true) (ha : (s.group j).state.active = true) :
    waitOf s i = 65535 := by
  rw [waitOf_eq]
  exact foldl_withTerm_blocked 0 (.inr ⟨j, (mem_conflictsOf s i j).2 hc, ha⟩)

/-- Settles O10: with an active group among the terms the wait is BLOCKED, and otherwise their largest, each at most one byte. -/
theorem waitIsTheLargestTerm : Obligations.WaitIsTheLargestTerm := by
  unfold Obligations.WaitIsTheLargestTerm
  refine fun s i => ⟨fun ⟨j, hc, ha⟩ => waitOf_blocked hc ha, fun h => ?_⟩
  obtain ⟨-, hl, hr⟩ := foldl_withTerm_largest (i := i) 0 fun j hj => h j ((mem_conflictsOf s i j).1 hj)
  rw [← waitOf_eq] at hl hr
  have attained : waitOf s i = 0 ∨ ∃ j, s.inConflict j i = true ∧ waitOf s i = s.remaining i j :=
    hr.imp_right fun ⟨j, hj, e⟩ => ⟨j, (mem_conflictsOf s i j).1 hj, e⟩
  refine ⟨fun j hj => hl j ((mem_conflictsOf s i j).2 hj), attained, ?_⟩
  rcases attained with e | ⟨j, -, e⟩
  · omega
  · rw [e]; exact remaining_le s i j

end Sys2Proof.Machine

/-! PROOFS. The ranking and the walk (R36, R37). -/

namespace Sys2Proof.Machine

open Sys2Proof

/-! ### The ranking -/

section

variable {s : State} {a b c : GroupNo}

theorem ranksBefore_iff : ranksBefore s a b = true ↔
    (s.group b).age < (s.group a).age ∨ ((s.group a).age = (s.group b).age ∧ a.val < b.val) := by
  simp [ranksBefore]

theorem ranksBefore_asymm (h : ranksBefore s a b = true) : ¬ranksBefore s b a = true := by
  rw [ranksBefore_iff] at h ⊢; omega

theorem ranksBefore_trans (h : ranksBefore s a b = true) (k : ranksBefore s b c = true) : ranksBefore s a c = true := by
  rw [ranksBefore_iff] at *; omega

theorem ranksBefore_total (h : a ≠ b) : ranksBefore s a b = true ∨ ranksBefore s b a = true := by
  have hv : a.val ≠ b.val := fun e => h (Fin.ext e)
  rw [ranksBefore_iff, ranksBefore_iff]; omega

end

/-- The list stands in the order of the ranking (R36). -/
def InRank (s : State) (l : List GroupNo) : Prop := l.Pairwise fun a b => ranksBefore s a b = true

/-- A candidate put into its place keeps the order. -/
theorem rankInsert_inRank {s : State} {g : GroupNo} {l : List GroupNo} (hg : g ∉ l) (h : InRank s l) : InRank s (rankInsert s g l) := by
  induction l with
  | nil => exact List.pairwise_singleton _ g
  | cons x l ih =>
    obtain ⟨hx, hl⟩ := List.pairwise_cons.1 h
    have hgx : g ≠ x := fun e => hg (e ▸ List.mem_cons_self)
    unfold rankInsert
    split
    · rename_i hb
      refine List.pairwise_cons.2 ⟨fun a ha => ?_, h⟩
      rcases List.mem_cons.1 ha with rfl | ha
      · exact hb
      · exact ranksBefore_trans hb (hx a ha)
    · rename_i hb
      refine List.pairwise_cons.2 ⟨fun a ha => ?_, ih (fun hm => hg (List.mem_cons_of_mem _ hm)) hl⟩
      rcases (mem_rankInsert s g a l).1 ha with rfl | ha
      · exact (ranksBefore_total hgx).resolve_left hb
      · exact hx a ha

theorem ranked_inRank (s : State) {l : List GroupNo} (h : l.Nodup) : InRank s (ranked s l) := by
  induction l with
  | nil => exact List.Pairwise.nil
  | cons x l ih =>
    obtain ⟨hx, hl⟩ := List.nodup_cons.1 h
    exact rankInsert_inRank (fun hm => hx ((mem_ranked s x l).1 hm)) (ih hl)

theorem candidates_inRank (s : State) : InRank s (ranked s (candidates s)) :=
  ranked_inRank s ((List.nodup_finRange 32).filter _)

theorem mem_candidates (s : State) (g : GroupNo) : g ∈ ranked s (candidates s) ↔ releasable s g = true := by
  rw [mem_ranked, candidates, List.mem_filter]; simp

/-! ### The walk -/

/-- A candidate's turn in the walk (R37). -/
def walkTurn (s : State) (granted : List GroupNo) (g : GroupNo) : List GroupNo :=
  if granted.any fun j => s.inConflict j g then granted else g :: granted

theorem walk_eq (s : State) (l : List GroupNo) : walk s l = l.foldl (walkTurn s) [] := rfl

theorem mem_walkTurn {s : State} {m : List GroupNo} {g a : GroupNo} :
    a ∈ walkTurn s m g ↔ a ∈ m ∨ (a = g ∧ ∀ j ∈ m, s.inConflict j g = false) := by
  unfold walkTurn
  split
  · rename_i h
    obtain ⟨j, hj, hc⟩ := List.any_eq_true.1 h
    refine ⟨.inl, fun k => k.resolve_right fun ⟨_, hn⟩ => ?_⟩
    rw [hn j hj] at hc; cases hc
  · rename_i h
    have hn : ∀ j ∈ m, s.inConflict j g = false := by simpa using h
    rw [List.mem_cons, or_comm]
    exact or_congr_right (iff_self_and.2 fun _ => hn)

/-- The turns of other candidates do not decide on a group. -/
theorem mem_foldl_walkTurn {s : State} {a : GroupNo} {l : List GroupNo} (h : a ∉ l) (m : List GroupNo) :
    a ∈ l.foldl (walkTurn s) m ↔ a ∈ m := by
  induction l generalizing m with
  | nil => exact Iff.rfl
  | cons x l ih =>
    obtain ⟨hx, hl⟩ := not_or.1 (mt List.mem_cons.2 h)
    rw [List.foldl_cons, ih hl, mem_walkTurn]
    exact or_iff_left fun k => hx k.1

/-- The walk over a list in rank order grants one of its groups exactly when it granted none before that is in conflict with it (R37). -/
theorem mem_walk_iff {s : State} {g : GroupNo} {l : List GroupNo} (h : InRank s l) (hg : g ∈ l) :
    g ∈ walk s l ↔ ∀ j ∈ walk s l, ranksBefore s j g = true → s.inConflict j g = false := by
  obtain ⟨front, back, rfl⟩ := List.append_of_mem hg
  obtain ⟨-, hback, hacross⟩ := List.pairwise_append.1 h
  have before : ∀ j ∈ front, ranksBefore s j g = true := fun j hj => hacross j hj g List.mem_cons_self
  have after : ∀ j ∈ back, ranksBefore s g j = true := (List.pairwise_cons.1 hback).1
  have outside : ∀ j, (ranksBefore s j g = true ∨ j = g) → j ∉ back := fun j hj hm => by
    rcases hj with hj | rfl
    · exact ranksBefore_asymm hj (after j hm)
    · exact ranksBefore_asymm (after j hm) (after j hm)
  have unmet : g ∉ walk s front := fun hm => ranksBefore_asymm (before g (mem_of_mem_walk hm)) (before g (mem_of_mem_walk hm))
  have decided : ∀ j, (ranksBefore s j g = true ∨ j = g) →
      (j ∈ walk s (front ++ g :: back) ↔ j ∈ walkTurn s (walk s front) g) := fun j hj => by
    rw [walk_eq, List.foldl_append, List.foldl_cons, mem_foldl_walkTurn (outside j hj)]; rfl
  rw [decided g (.inr rfl), mem_walkTurn]
  refine ⟨fun hm j hj hb => ?_, fun hn => .inr ⟨rfl, fun j hj => ?_⟩⟩
  · have hjf : j ∈ walk s front := by
      rcases mem_walkTurn.1 ((decided j (.inl hb)).1 hj) with hj | ⟨rfl, -⟩
      · exact hj
      · exact absurd hb (ranksBefore_asymm hb)
    exact (hm.resolve_left unmet).2 j hjf
  · have hb := before j (mem_of_mem_walk hj)
    exact hn j ((decided j (.inl hb)).2 (mem_walkTurn.2 (.inl hj))) hb

/-- The grants of an evaluation (R36, R37). -/
theorem mem_grantedGroups_iff (s : State) (g : GroupNo) : g ∈ grantedGroups s ↔
    releasable s g = true ∧ ∀ j ∈ grantedGroups s, ranksBefore s j g = true → s.inConflict j g = false := by
  by_cases hr : releasable s g = true
  · rw [and_iff_right hr]
    exact mem_walk_iff (candidates_inRank s) ((mem_candidates s g).2 hr)
  · exact ⟨fun h => absurd (releasable_of_granted h) hr, fun h => absurd h.1 hr⟩

/-- Settles O12: the candidates stand in rank order, and the walk decides on each by the grants before it. -/
theorem walkGrantsUnlessAnEarlierGrantConflicts : Obligations.WalkGrantsUnlessAnEarlierGrantConflicts := by
  unfold Obligations.WalkGrantsUnlessAnEarlierGrantConflicts
  intro s g
  rw [mem_grantedGroups_iff]
  refine and_congr_right fun _ => forall₂_congr fun j _ => ?_
  rw [← Fin.val_fin_lt, ← ranksBefore_iff, Bool.eq_false_iff]
  exact imp_not_comm

end Sys2Proof.Machine

/-! PROOFS. What an evaluation reports (R27, R28, R31, R39, R40). -/

namespace Sys2Proof.Machine

open Sys2Proof

/-- Condition 5 of R28 (R31): every used and required sign record bound to the group is LIVE with no display fault. -/
theorem signsAllow_iff (s : State) (g : GroupNo) : signsAllow s g = true ↔
    ∀ r : SignNo, (s.active.signs.get r).used = true → (s.active.signs.get r).required = true →
      (s.active.signs.get r).boundGroup = some g →
      (s.link.signs.get r).state = .live ∧ (s.link.signs.get r).status.displayFault = false := by
  unfold signsAllow
  rw [List.all_eq_true]
  refine ⟨fun h r hu hq hb => ?_, fun h r _ => ?_⟩
  · simpa [signAllows, hu, hq, hb] using h r (List.mem_finRange r)
  · by_cases hc : ((s.active.signs.get r).used = true ∧ (s.active.signs.get r).required = true) ∧
      (s.active.signs.get r).boundGroup = some g
    · simp [signAllows, h r hc.1.1 hc.1.2 hc.2]
    · have asked : ((s.active.signs.get r).used && (s.active.signs.get r).required &&
          decide ((s.active.signs.get r).boundGroup = some g)) = false := by simpa using hc
      rw [signAllows, asked]; rfl

/-- The six conditions of R28. -/
theorem releasable_iff (s : State) (g : GroupNo) : releasable s g = true ↔
    s.mode.mode = .normal ∧ s.configured g = true ∧ (s.group g).state = .stop ∧ s.requested g = true ∧ s.heldByLine g = false ∧
      signsAllow s g = true ∧ waitOf s g ≤ s.prepareTime g := by
  simp [releasable, State.isPending, and_assoc]

theorem reportedWait_eq (s : State) (granted : List GroupNo) (i : GroupNo) : reportedWait s granted i =
    if s.configured i = false ∨ ∃ j ∈ granted, s.inConflict j i = true then 65535 else waitOf s i := by
  unfold reportedWait
  simp only [List.any_eq_true]
  rcases s.configured i with _ | _
  · rfl
  · by_cases h : ∃ j ∈ granted, s.inConflict j i = true <;> simp [h, Config.wordLimit]

/-- After an evaluation the arbiter holds what it reports. -/
theorem evaluate_arbiter {s : State} (h : s.parts.arbiter = true) : (evaluate s).arbiter = reported s := by
  rw [evaluate_due h]
  exact (grants_sweep (grantedGroups s) (grantStart (reported s) s)).frame.arbiter

theorem firstReleasable_none {a : Arbiter} (h : a.releasable = 0) : a.firstReleasable = 0xFFFF := by
  have hn : ((List.finRange 32).find? fun g => a.releasable.getLsbD g.val) = none := by
    rw [List.find?_eq_none]
    intro g _
    simp [h]
  unfold Arbiter.firstReleasable
  rw [hn]

theorem firstReleasable_least {a : Arbiter} {i : GroupNo} (hi : a.releasable.getLsbD i.val = true)
    (hl : ∀ j : GroupNo, j < i → a.releasable.getLsbD j.val = false) : a.firstReleasable = BitVec.ofNat 16 i.val := by
  have h := find?_finRange_isLeast (n := 32) fun g => a.releasable.getLsbD g.val
  unfold Arbiter.firstReleasable
  rcases hg : (List.finRange 32).find? fun g => a.releasable.getLsbD g.val with _ | g <;> rw [hg] at h
  · exact absurd ⟨i, rfl, hi⟩ (h i.val)
  · obtain ⟨⟨g', e, hg'⟩, hfirst⟩ := h
    obtain rfl : g = g' := Fin.ext e
    rcases lt_trichotomy g i with hlt | rfl | hgt
    · rw [hl g hlt] at hg'; cases hg'
    · rw [hg]
    · exact absurd ⟨i, rfl, hi⟩ (hfirst i.val hgt)

/-- Settles O11: what is reported is read off the six conditions, the waits and the grants of the evaluation. -/
theorem evaluationReportsWaitsAndFlags : Obligations.EvaluationReportsWaitsAndFlags := by
  unfold Obligations.EvaluationReportsWaitsAndFlags
  intro s h
  refine ⟨evaluate s, rfl, fun i => ?_, fun i => ?_, firstReleasable_none, fun i => firstReleasable_least⟩
  · rw [evaluate_arbiter h, reported, maskOf_getLsbD, releasable_iff, signsAllow_iff]
  · rw [evaluate_arbiter h, reported, vector_get_ofFn, reportedWait_eq]

end Sys2Proof.Machine

/-! PROOFS. What a command keeps of the safety invariant and of the intergreen invariant, as relations that compose (R37, R41, R67, R172). -/

namespace Sys2Proof.Machine

open Sys2Proof

/-! ### What the invariants give -/

section

variable {s : State}

/-- What valid tables say of a conflict: no group is in conflict with itself, a conflict is mutual, and its intergreen covers the clearing
time (R23, R169). -/
theorem conflict_of_valid {t : Tables} (h : t.firstViolation = none) {j i : GroupNo} (hj : j.val < t.timing.groupCount.toNat)
    (hi : i.val < t.timing.groupCount.toNat) : t.conflictBit j j = false ∧ t.conflictBit j i = t.conflictBit i j ∧
      (t.conflictBit j i = true → (t.groups.get j).clearingTime.toNat ≤ t.intergreenOf j i) := by
  obtain ⟨-, -, hm, -⟩ := (validTablesMeetTheConditions t).1.1 h
  exact hm j i hj hi

theorem inConflict_iff (s : State) (j i : GroupNo) :
    s.inConflict j i = true ↔ s.configured j = true ∧ s.configured i = true ∧ s.active.conflictBit j i = true := by
  simp [State.inConflict, and_assoc]

namespace SafetyInv

variable (h : SafetyInv s)
include h

theorem conflict {j i : GroupNo} (hc : s.inConflict j i = true) : s.inConflict i j = true ∧ j ≠ i ∧
    s.clearingTime j ≤ s.active.intergreenOf j i := by
  obtain ⟨hj, hi, hb⟩ := (inConflict_iff s j i).1 hc
  obtain ⟨hv, hj'⟩ := (configured_iff s j).1 hj
  obtain ⟨-, hi'⟩ := (configured_iff s i).1 hi
  obtain ⟨hself, hsymm, hcl⟩ := conflict_of_valid (h.tables hv) hj' hi'
  refine ⟨(inConflict_iff s i j).2 ⟨hi, hj, hsymm.symm.trans hb⟩, ?_, hcl hb⟩
  rintro rfl
  exact absurd (hself.symm.trans hb) (by simp)

theorem clearingTime_pos {g : GroupNo} (hc : s.configured g = true) : 0 < s.clearingTime g := by
  obtain ⟨hv, hg⟩ := (configured_iff s g).1 hc
  obtain ⟨-, -, -, hr, -⟩ := (validTablesMeetTheConditions s.active).1.1 (h.tables hv)
  have hr := hr g hg
  show 0 < (s.active.groups.get g).clearingTime.toNat
  omega

/-- Of two groups in conflict with one in PREPARE or GO the other is in neither (R37). -/
theorem inactive {j i : GroupNo} (hc : s.inConflict j i = true) (hi : (s.group i).state.active = true) :
    (s.group j).state.active = false := by
  by_contra hj
  rw [h.exclusive j i hc (by simpa using hj)] at hi; cases hi

end SafetyInv

end

/-- The groups of the flash modes are in FLASHING or UNLIT (R67). -/
theorem stateFitsMode_flashing {m : Mode} (h : m.flashing = true) (st : GroupState) :
    stateFitsMode m st = true ↔ st = .flashing ∨ st = .unlit := by
  cases m <;> simp [Mode.flashing] at h <;> simp [stateFitsMode]

/-- Outside the flash modes a group in neither PREPARE nor GO is in STOP or CLEARING (R67). -/
theorem stateFitsMode_inactive {m : Mode} {st : GroupState} (h : stateFitsMode m st = true) (hm : m.flashing = false)
    (ha : st.active = false) : st = .stop ∨ st = .clearing := by
  cases m <;> simp [Mode.flashing] at hm <;> cases st <;> simp [stateFitsMode, GroupState.active] at h ha ⊢

/-- A mode that a group in PREPARE or GO fits is no flash mode, and fits STOP and CLEARING as well (R67). -/
theorem stateFitsMode_active {m : Mode} {st : GroupState} (h : stateFitsMode m st = true) (ha : st.active = true) :
    m.flashing = false ∧ stateFitsMode m .stop = true ∧ stateFitsMode m .clearing = true ∧ stateFitsMode m .go = true := by
  cases m <;> cases st <;> simp [stateFitsMode, GroupState.active, Mode.flashing] at h ha ⊢

/-- A group that is to enter GO with every intergreen into it run finds each group in conflict with it in STOP: one still in CLEARING would
have E short of its clearing time (R41). -/
theorem stop_of_intergreen {t : State} (h : SafetyInv t) (hg : IntergreenInv t) {j i : GroupNo} (hc : t.inConflict j i = true)
    (hi : (t.group i).state = .go) (he : t.active.intergreenOf j i ≤ (t.group j).elapsed) : (t.group j).state = .stop := by
  obtain ⟨hjc, hic, -⟩ := (inConflict_iff t j i).1 hc
  have hia : (t.group i).state.active = true := by rw [hi]; rfl
  have hm := (stateFitsMode_active (h.states i hic) hia).1
  refine (stateFitsMode_inactive (h.states j hjc) hm (h.inactive hc hia)).resolve_right fun hj => ?_
  obtain ⟨h1, h2, -⟩ := hg.clearing j hjc hj
  have := (h.conflict hc).2.2
  omega

/-! ### The relations -/

/-- Every group that enters GO from `s` to `t` finds the groups in conflict with it in STOP, with their intergreens run (R41). -/
def GoEntriesClear (s t : State) : Prop :=
  ∀ j i, t.inConflict j i = true → (s.group i).state ≠ .go → (t.group i).state = .go →
    (t.group j).state = .stop ∧ t.active.intergreenOf j i ≤ (t.group j).elapsed

/-- From `s` to `t` both invariants are kept, and the entries to GO are clear. Every command keeps it. -/
structure Guards (s t : State) : Prop where
  safety : SafetyInv s → SafetyInv t
  intergreen : SafetyInv s → IntergreenInv s → IntergreenInv t
  goEntries : SafetyInv s → IntergreenInv s → GoEntriesClear s t

/-- From `s` to `t` both invariants are kept, and no group enters GO. Every command but the sequencer's step and the evaluation keeps it. -/
structure Secure (s t : State) : Prop where
  safety : SafetyInv s → SafetyInv t
  intergreen : SafetyInv s → IntergreenInv s → IntergreenInv t
  noGo : SafetyInv s → ∀ g, (t.group g).state = .go → (s.group g).state = .go

section

variable {s t u : State}

theorem Secure.guards (h : Secure s t) : Guards s t :=
  ⟨h.safety, h.intergreen, fun hs _ _ i _ hn hi => absurd (h.noGo hs i hi) hn⟩

theorem Secure.refl (s : State) : Secure s s := ⟨id, fun _ => id, fun _ _ => id⟩

theorem Secure.trans (h : Secure s t) (k : Secure t u) : Secure s u where
  safety := k.safety ∘ h.safety
  intergreen := fun hs hg => k.intergreen (h.safety hs) (h.intergreen hs hg)
  noGo := fun hs g hu => h.noGo hs g (k.noGo (h.safety hs) g hu)

theorem Secure.ite {c : Prop} [Decidable c] (h : c → Secure s t) : Secure s (if c then t else s) := by
  split
  · rename_i hc; exact h hc
  · exact .refl s

theorem Guards.ite {c : Prop} [Decidable c] (h : Guards s t) : Guards s (if c then t else s) := by
  split
  · exact h
  · exact (Secure.refl s).guards

theorem foldl_secure {α : Type} {f : State → α → State} (hf : ∀ s a, Secure s (f s a)) : ∀ (l : List α) (s : State), Secure s (l.foldl f s)
  | [], s => .refl s
  | a :: l, s => (hf s a).trans (foldl_secure hf l (f s a))

end

/-! ### Commands that leave the active tables -/

/-- A commit is in progress in a flash mode alone, with valid staging tables (R168, R169). -/
def CommitSound (s : State) : Prop := s.store.busy = true → s.mode.mode.flashing = true ∧ s.store.staging.firstViolation = none

/-- The active tables and their validity are the same. -/
structure SameTables (s t : State) : Prop where
  tables : t.store.nv.active = s.store.nv.active := by exact rfl
  valid : t.store.nv.valid = s.store.nv.valid := by exact rfl

namespace SameTables

variable {s t : State} (h : SameTables s t)
include h

theorem active : t.active = s.active := h.tables
theorem configured (g : GroupNo) : t.configured g = s.configured g := by
  rw [Bool.eq_iff_iff, configured_iff, configured_iff, h.valid, h.tables]
theorem inConflict (j i : GroupNo) : t.inConflict j i = s.inConflict j i := by
  simp only [State.inConflict, h.configured, h.active]
theorem prepareTime (g : GroupNo) : t.prepareTime g = s.prepareTime g := by
  simp only [State.prepareTime, State.record, h.active]
theorem clearingTime (g : GroupNo) : t.clearingTime g = s.clearingTime g := by
  simp only [State.clearingTime, State.record, h.active]
theorem sound (k : s.store.sound) : t.store.sound := by
  unfold TableStore.sound
  rw [h.valid, h.tables]; exact k

end SameTables

theorem SameTables.of_store {s t : State} (h : t.store = s.store) : SameTables s t := ⟨by rw [h], by rw [h]⟩

/-- What a command that releases no movement makes of a group's record: it stands but for its flags and ages, it is truncated from GO
into CLEARING, or it is aborted from PREPARE into STOP (R15, R17, R62). -/
inductive Slows (x y : Group) : Prop
  | stands (state : y.state = x.state) (prepareTimer : y.prepareTimer = x.prepareTimer)
      (clearingTimer : y.clearingTimer = x.clearingTimer) (elapsed : y.elapsed = x.elapsed)
  | truncated (left : x.state = .go) (state : y.state = .clearing) (clearingTimer : y.clearingTimer = 0) (elapsed : y.elapsed = 0)
  | aborted (left : x.state = .prepare) (state : y.state = .stop)

namespace Slows

variable {x y z : Group}

theorem refl (x : Group) : Slows x x := .stands rfl rfl rfl rfl

theorem trans (h : Slows x y) (k : Slows y z) : Slows x z := by
  cases h with
  | stands a b c d =>
    cases k with
    | stands a' b' c' d' => exact .stands (a'.trans a) (b'.trans b) (c'.trans c) (d'.trans d)
    | truncated l a' c' d' => exact .truncated (a.symm.trans l) a' c' d'
    | aborted l a' => exact .aborted (a.symm.trans l) a'
  | truncated l a c d =>
    cases k with
    | stands a' _ c' d' => exact .truncated l (a'.trans a) (c'.trans c) (d'.trans d)
    | truncated l' | aborted l' => rw [a] at l'; cases l'
  | aborted l a =>
    cases k with
    | stands a' => exact .aborted l (a'.trans a)
    | truncated l' | aborted l' => rw [a] at l'; cases l'

/-- A group in PREPARE or GO after the command was there before, and stands. -/
theorem of_active (h : Slows x y) (ha : y.state.active = true) :
    y.state = x.state ∧ y.prepareTimer = x.prepareTimer := by
  cases h with
  | stands a b => exact ⟨a, b⟩
  | truncated _ a | aborted _ a => rw [a] at ha; cases ha

/-- A group in neither PREPARE nor GO stands. -/
theorem of_inactive (h : Slows x y) (hx : x.state.active = false) : y.state = x.state ∧ y.elapsed = x.elapsed := by
  cases h with
  | stands a _ _ d => exact ⟨a, d⟩
  | truncated l | aborted l => rw [l] at hx; cases hx

theorem fits (h : Slows x y) {m : Mode} (hx : stateFitsMode m x.state = true) : stateFitsMode m y.state = true := by
  cases h with
  | stands a => rw [a]; exact hx
  | truncated l a => rw [l] at hx; rw [a]; exact (stateFitsMode_active hx rfl).2.2.1
  | aborted l a => rw [l] at hx; rw [a]; exact (stateFitsMode_active hx rfl).2.1

end Slows

/-- From `s` to `t` the active tables stand, no movement is released, and the sequencer's step is told which groups entered a state. -/
structure Slowed (s t : State) : Prop where
  tables : SameTables s t
  commit : CommitSound s → CommitSound t
  flashing : t.mode.mode.flashing = s.mode.mode.flashing
  mode : ∀ st, stateFitsMode s.mode.mode st = true → stateFitsMode t.mode.mode st = true
  groups : ∀ g, s.configured g = true → Slows (s.group g) (t.group g)
  unconfigured : ∀ g, s.configured g = false → t.group g = s.group g
  sequencer : t.parts.sequencer = s.parts.sequencer
  heldBack : HeldBack s t false

section

variable {s t : State} (h : Slowed s t)
include h

theorem Slowed.safetyInv (hs : SafetyInv s) : SafetyInv t where
  unconfigured := fun g hg => by
    rw [h.tables.configured] at hg
    rw [h.unconfigured g hg]; exact hs.unconfigured g hg
  states := fun g hg => by
    rw [h.tables.configured] at hg
    exact h.mode _ ((h.groups g hg).fits (hs.states g hg))
  exclusive := fun j i hc hj => by
    rw [h.tables.inConflict] at hc
    obtain ⟨hjc, hic, -⟩ := (inConflict_iff s j i).1 hc
    rw [((h.groups j hjc).of_active hj).1] at hj
    have hi := hs.exclusive j i hc hj
    rw [((h.groups i hic).of_inactive hi).1]; exact hi
  tables := h.tables.sound hs.tables
  configuredMode := fun hm => by
    rw [h.tables.valid]; exact hs.configuredMode (h.flashing.symm.trans hm)
  commit := h.commit hs.commit

/-- The sequencer's step is told of a group's timers and E alike, and of a group that stands nothing. -/
theorem Slowed.held {g : GroupNo} (hg : (t.group g).state = (s.group g).state) :
    timersHeld t g = timersHeld s g ∧ elapsedHeld t g = elapsedHeld s g := by
  have enters : entersState s t false g = false := by simp [entersState, hg]
  obtain ⟨h1, h2⟩ := h.heldBack g
  rw [enters] at h1 h2
  simp only [timersHeld, elapsedHeld, h.sequencer, h1, h2, Bool.and_false, Bool.or_false, Bool.false_and, and_self]

theorem Slowed.held_truncated {g : GroupNo} (hc : s.configured g = true) (hx : (s.group g).state = .go)
    (hy : (t.group g).state = .clearing) : elapsedHeld t g = timersHeld t g := by
  have enters : entersState s t false g = true := by simp [entersState, hc, hx, hy]
  obtain ⟨h1, h2⟩ := h.heldBack g
  simp only [timersHeld, elapsedHeld, h.sequencer, h1, h2, enters, hy]
  cases s.parts.sequencer <;> simp

theorem Slowed.intergreenInv (hs : SafetyInv s) (hg : IntergreenInv s) : IntergreenInv t where
  clearing := fun g hc hst => by
    rw [h.tables.configured] at hc
    rw [h.tables.clearingTime]
    rcases h.groups g hc with ⟨a, -, c, d⟩ | ⟨l, a, c, d⟩ | ⟨-, a⟩
    · obtain ⟨h1, h2⟩ := h.held a
      rw [c, d, h1, h2]
      exact hg.clearing g hc (a.symm.trans hst)
    · rw [c, d]
      exact ⟨rfl, hs.clearingTime_pos hc, h.held_truncated hc l a⟩
    · rw [a] at hst; cases hst
  prepare := fun g hc hst => by
    rw [h.tables.configured] at hc
    obtain ⟨a, b⟩ := (h.groups g hc).of_active (by rw [hst]; rfl)
    rw [b, h.tables.prepareTime]
    exact hg.prepare g hc (a.symm.trans hst)
  approach := fun j i hc hst => by
    rw [h.tables.inConflict] at hc
    obtain ⟨hjc, hic, -⟩ := (inConflict_iff s j i).1 hc
    obtain ⟨a, b⟩ := (h.groups i hic).of_active (by rw [hst]; rfl)
    have hi := a.symm.trans hst
    obtain ⟨c, d⟩ := (h.groups j hjc).of_inactive (hs.inactive hc (by rw [hi]; rfl))
    rw [b, d, h.tables.active, h.tables.prepareTime, (h.held c).2, (h.held a).1]
    exact hg.approach j i hc hi

theorem Slowed.secure : Secure s t where
  safety := h.safetyInv
  intergreen := h.intergreenInv
  noGo := fun _ g hst => by
    rcases hc : s.configured g with _ | _
    · rw [← h.unconfigured g hc]; exact hst
    · exact ((h.groups g hc).of_active (by rw [hst]; rfl)).1.symm.trans hst

end

/-- From `s` to `t` nothing changed that the invariants read, but that a commit may have begun. A field is left out where its component
stands. -/
structure Steady (s t : State) : Prop extends SameTables s t where
  groups : t.groups = s.groups := by exact rfl
  mode : t.mode.mode = s.mode.mode := by exact rfl
  commit : CommitSound s → CommitSound t := by exact id
  sequencer : t.parts.sequencer = s.parts.sequencer := by exact rfl
  heldTimers : t.parts.heldTimers = s.parts.heldTimers := by exact rfl
  heldElapsed : t.parts.heldElapsed = s.parts.heldElapsed := by exact rfl

theorem Steady.secure {s t : State} (h : Steady s t) : Secure s t := by
  have group : ∀ g, t.group g = s.group g := fun g => by simp only [State.group, h.groups]
  refine Slowed.secure ⟨h.toSameTables, h.commit, by rw [h.mode], fun st => by rw [h.mode]; exact id, fun g _ => ?_, fun g _ => group g,
    h.sequencer, fun g => ?_⟩
  · rw [group]; exact .refl _
  · simp [entersState, group, h.heldTimers, h.heldElapsed]

/-- A command that moves groups and releases no movement. -/
theorem Secure.of_frame {s t : State} (h : GroupFrame s t) (hu : ∀ g, s.configured g = false → t.group g = s.group g)
    (hg : ∀ g, s.configured g = true → Slows (s.group g) (t.group g)) (hh : HeldBack s t false) : Secure s t :=
  Slowed.secure ⟨.of_store h.store, fun hs => by unfold CommitSound; rw [h.store, h.modeMode]; exact hs, by rw [h.modeMode],
    fun st => by rw [h.modeMode]; exact id, hg, hu, h.sequencer, hh⟩

/-! ### Commands that end in a flash mode -/

/-- In a flash mode the safety invariant needs the groups in FLASHING or UNLIT, whatever the tables say of conflicts. -/
theorem safetyInv_of_flashing {t : State} (hm : t.mode.mode.flashing = true)
    (hu : ∀ g, t.configured g = false → t.group g = Group.unconfigured)
    (hg : ∀ g, t.configured g = true → (t.group g).state = .flashing ∨ (t.group g).state = .unlit)
    (ht : t.store.sound) (hc : t.store.busy = true → t.store.staging.firstViolation = none) : SafetyInv t where
  unconfigured := hu
  states := fun g h => (stateFitsMode_flashing hm _).2 (hg g h)
  exclusive := fun j i h hj => by
    rcases hg j ((inConflict_iff t j i).1 h).1 with e | e <;> rw [e] at hj <;> cases hj
  tables := ht
  configuredMode := fun h => by rw [hm] at h; cases h
  commit := fun hb => ⟨hm, hc hb⟩

/-- A command that ends in a flash mode has the safety invariant to keep and no more. -/
theorem Secure.of_flashing {s t : State} (h : SafetyInv s → SafetyInv t) (hm : t.mode.mode.flashing = true) : Secure s t := by
  have dark : SafetyInv s → ∀ g, (t.group g).state = .flashing ∨ (t.group g).state = .unlit := fun hs g => by
    rcases hc : t.configured g with _ | _
    · rw [(h hs).unconfigured g hc]; exact .inr rfl
    · exact (stateFitsMode_flashing hm _).1 ((h hs).states g hc)
  refine ⟨h, fun hs _ => ⟨fun g _ hst => ?_, fun g _ hst => ?_, fun _ g _ hst => ?_⟩, fun hs g hst => ?_⟩
  all_goals rcases dark hs g with e | e <;> rw [e] at hst <;> cases hst

/-- An entry to a flash mode. -/
theorem Secure.of_flashEntry {s t : State} (ht : SameTables s t) (hm : t.mode.mode.flashing = true)
    (hu : ∀ g, s.configured g = false → t.group g = s.group g)
    (hg : SafetyInv s → ∀ g, s.configured g = true → (t.group g).state = .flashing ∨ (t.group g).state = .unlit)
    (hc : (s.store.busy = true → s.store.staging.firstViolation = none) → t.store.busy = true → t.store.staging.firstViolation = none) :
    Secure s t := by
  refine .of_flashing (fun hs => safetyInv_of_flashing hm (fun g h => ?_) (fun g h => ?_) (ht.sound hs.tables)
    (hc fun hb => (hs.commit hb).2)) hm
  · rw [ht.configured] at h
    rw [hu g h]; exact hs.unconfigured g h
  · exact hg hs g ((ht.configured g).symm.trans h)

end Sys2Proof.Machine

/-! PROOFS. The moves of groups and the changes of mode keep the invariants (R37, R41, R51, R56, R62, R64, R67, R90). -/

namespace Sys2Proof.Machine

open Sys2Proof

/-! ### Moves that release no movement -/

theorem holdEffect_slows (s : State) (g : GroupNo) (x : Group) : Slows x (holdEffect s g x).group := by
  unfold holdEffect
  split
  · split
    · rename_i h; exact .truncated h rfl rfl rfl
    · rename_i h; exact .aborted h rfl
    · exact .refl x
  · exact .refl x

theorem underHold_slows (s : State) (g : GroupNo) (x : Group) : Slows x (underHold s g x) := by
  unfold underHold
  split
  · split
    · rename_i h; exact .truncated h rfl rfl rfl
    · rename_i h; exact .aborted h rfl
    · exact .refl x
  · exact .refl x

theorem afterCleared_slows (s : State) (g : GroupNo) (x : Group) : Slows x (afterCleared s g x) := by
  unfold afterCleared
  split
  · exact .stands rfl rfl rfl rfl
  · exact .stands rfl rfl rfl rfl
  · rename_i h
    split
    · exact .truncated h rfl rfl rfl
    · exact .stands rfl rfl rfl rfl
  · exact .refl x

theorem afterSet_slows (x : Group) : Slows x (afterSet x) := by
  unfold afterSet
  split
  · exact .stands rfl rfl rfl rfl
  · exact .stands rfl rfl rfl rfl
  · exact .stands rfl rfl rfl rfl
  · exact .refl x

theorem changeEffect_slows (old : Mask) (s : State) (g : GroupNo) (x : Group) : Slows x (changeEffect old s g x).group := by
  unfold changeEffect
  split
  · exact .refl x
  · split
    · rw [setEffect_group]; exact afterSet_slows x
    · rw [clearedEffect_group]; exact afterCleared_slows s g x

theorem atToFlash_slows (s : State) (g : GroupNo) : Slows (s.group g) (atToFlash s g) := by
  unfold atToFlash
  split
  · exact (afterCleared_slows s g _).trans (underHold_slows s g _)
  · exact underHold_slows s g _

theorem holdSweep_secure (s : State) : Secure s (holdSweep s) := by
  have h := holdSweep_sweep s
  exact .of_frame h.frame (fun _ => h.unconfigured) (fun g hc => by rw [h.group hc]; exact holdEffect_slows s g _)
    (holdSweep_groupMove s).heldBack

theorem handChanges_secure (old : Mask) (s : State) : Secure s (handChanges old s) := by
  by_cases hm : s.mode.mode = .toFlash
  · rw [handChanges_toFlash old hm]; exact .refl s
  · have h := handChanges_sweep old s hm
    exact .of_frame h.frame (fun _ => h.unconfigured) (fun g hc => by rw [h.group hc]; exact changeEffect_slows old s g _)
      (handChanges_move old s).heldBack

/-! ### Entries to ALL_STOP, NORMAL and TO_FLASH -/

/-- An entry to TO_FLASH, from ALL_STOP or NORMAL (R54, R55, R56). -/
theorem toFlashEntry_secure (c : Cause) {s : State} (hm : s.mode.mode.supervised = true) : Secure s (toFlashEntry c s) := by
  have h := toFlashEntry_move c s
  have k := toFlashEntry_change c (.refl s)
  have hflash : s.mode.mode.flashing = false := by
    revert hm; cases s.mode.mode <;> simp [Mode.supervised, Mode.flashing]
  refine Slowed.secure ⟨.of_store h.store, ?_, ?_, fun st hst => ?_, fun g hc => ?_, k.unconfigured, h.sequencer, k.heldBack⟩
  · intro hs hb
    rw [h.store] at hb
    exact absurd (hs hb).1 (by rw [hflash]; simp)
  · rw [k.mode, hflash]; rfl
  · rw [k.mode]
    revert hm hst; cases s.mode.mode <;> cases st <;> simp [Mode.supervised, stateFitsMode]
  · rw [toFlashEntry_group c hc]; exact atToFlash_slows s g

/-- The entry to NORMAL from ALL_STOP (R52). -/
theorem normalEntry_secure {s : State} (hm : s.mode.mode = .allStop) : Secure s (normalEntry s) := by
  have h := normalEntry_move s
  have k := normalEntry_change (.refl s)
  refine Slowed.secure ⟨.of_store h.store, ?_, ?_, fun st hst => ?_, fun g hc => ?_, k.unconfigured, h.sequencer, k.heldBack⟩
  · intro hs hb
    rw [h.store] at hb
    exact absurd (hs hb).1 (by rw [hm]; simp [Mode.flashing])
  · rw [k.mode, hm]; rfl
  · rw [k.mode]
    rw [hm] at hst
    revert hst; cases st <;> simp [stateFitsMode]
  · rw [normalEntry, changeMode_eq, (holdSweep_sweep (modeStart .normal s.mode.cause s)).group hc]
    exact holdEffect_slows _ g _

/-- What an entry to ALL_STOP leaves the sequencer's step to do: where it is still due, it holds back the timers and E of every configured
group (R46, R51). -/
theorem allStopEntry_held (s : State) {g : GroupNo} (hc : s.configured g = true) :
    elapsedHeld (allStopEntry s) g = timersHeld (allStopEntry s) g := by
  have k := allStopEntry_change (.refl s)
  obtain ⟨h1, h2⟩ := k.heldBack g
  have hq : (allStopEntry s).parts.sequencer = s.parts.sequencer := by rw [k.parts]
  simp only [timersHeld, elapsedHeld, hq, h1, h2, entersState, hc]
  cases s.parts.sequencer <;> simp

/-- The entry to ALL_STOP on valid tables with no commit in progress (R48, R50, R51): every configured group is in STOP or CLEARING, with E
and the clearing-timer at 0. -/
theorem allStopEntry_secure {s : State} (hv : s.store.nv.valid = true) (hb : s.store.busy = false) : Secure s (allStopEntry s) := by
  have k := allStopEntry_change (.refl s)
  have hstore := (allStopEntry_leaves s).2.2.1
  have tables : SameTables s (allStopEntry s) := .of_store hstore
  have group : ∀ g, s.configured g = true → (allStopEntry s).group g = Group.cleared ∨ (allStopEntry s).group g = Group.stopped 0 :=
    fun g hc => by
      rw [allStopEntry_atAllStop hc, atAllStop]
      split
      · exact .inl rfl
      · exact .inr rfl
  have inactive : SafetyInv s → ∀ g, ((allStopEntry s).group g).state.active = false := fun hs g => by
    rcases hc : s.configured g with _ | _
    · rw [k.unconfigured g hc, hs.unconfigured g hc]; rfl
    · rcases group g hc with e | e <;> rw [e] <;> rfl
  have noPrepare : SafetyInv s → ∀ g, ((allStopEntry s).group g).state ≠ .prepare := fun hs g e => by
    have ha := inactive hs g
    rw [e] at ha; cases ha
  refine ⟨fun hs => ?_, fun hs _ => ?_, fun hs g hst => ?_⟩
  · exact {
      unconfigured := fun g hg => by
        rw [tables.configured] at hg
        rw [k.unconfigured g hg]; exact hs.unconfigured g hg
      states := fun g hg => by
        rw [tables.configured] at hg
        rw [k.mode]
        rcases group g hg with e | e <;> rw [e] <;> rfl
      exclusive := fun j _ _ hj => by rw [inactive hs j] at hj; cases hj
      tables := tables.sound hs.tables
      configuredMode := fun _ => tables.valid.trans hv
      commit := fun h => by rw [hstore, hb] at h; cases h }
  · exact {
      clearing := fun g hg hst => by
        rw [tables.configured] at hg
        rw [tables.clearingTime]
        rcases group g hg with e | e
        · refine ⟨by rw [e]; rfl, ?_, allStopEntry_held s hg⟩
          rw [e]; exact hs.clearingTime_pos hg
        · rw [e] at hst; cases hst
      prepare := fun g _ hst => absurd hst (noPrepare hs g)
      approach := fun _ g _ hst => absurd hst (noPrepare hs g) }
  · have ha := inactive hs g
    rw [hst] at ha; cases ha

/-! ### Entries to the flash modes -/

/-- The entry to FLASH with its orders (R57, R58). -/
theorem flashEntry_secure (c : Cause) (s : State) : Secure s (flashEntry c s) := by
  have hs := (flashEntry_move c s).store
  have k := flashEntry_change c (.refl s)
  exact .of_flashEntry (.of_store hs) (by rw [k.mode]; rfl) k.unconfigured (fun _ g hc => .inl (flashEntry_state c s g hc))
    (by rw [hs]; exact id)

/-- The entry to FLASH at the end of START_FLASH, which orders no group (R48). -/
theorem resetFlash_secure {s : State} (hm : s.mode.mode = .startFlash) : Secure s (changeMode .flash .reset id s) :=
  .of_flashEntry (.of_store rfl) rfl (fun _ _ => rfl)
    (fun hs g hc => (stateFitsMode_flashing (m := s.mode.mode) (by rw [hm]; rfl) _).1 (hs.states g hc)) id

/-- The entry to DARK (R60). -/
theorem darkEntry_secure (s : State) : Secure s (darkEntry s) := by
  have hs := (darkEntry_move s).store
  have k := darkEntry_change (.refl s)
  exact .of_flashEntry (.of_store hs) (by rw [k.mode]; rfl) k.unconfigured (fun _ g hc => .inr (darkEntry_state s g hc))
    (by rw [hs]; exact id)

/-- The state from which a fault entry orders the groups: its FAULT and MODE records submitted (R64). -/
def faultStart (c : FaultCause) (a b : Byte) (s : State) : State :=
  submit .mode Config.absent (modeDetail .faultFlash s.mode.mode .fault) (submit .fault a (faultDetail c b false) (faultState c a b s))

theorem faultEntry_eq (c : FaultCause) (a b : Byte) (s : State) : faultEntry c a b s = orderAll .flashing (faultStart c a b s) := rfl

/-- A fault entry (R64, R65). -/
theorem faultEntry_secure (c : FaultCause) (a b : Byte) (s : State) : Secure s (faultEntry c a b s) := by
  have h := faultEntry_move c a b s
  refine .of_flashEntry ⟨by rw [h.store]; rfl, by rw [h.store]; rfl⟩ (by rw [faultEntry_mode]; rfl) (fun g hc => ?_)
    (fun _ g hc => .inl (faultEntry_state c a b s g hc)) (by rw [h.store]; exact id)
  have start : SameTables s (faultStart c a b s) := {}
  rw [faultEntry_eq]
  exact (orderAll_sweep .flashing (faultStart c a b s)).unconfigured ((start.configured g).trans hc)

theorem submit_secure (k : EventKind) (x : Byte) (d : Word) (s : State) : Secure s (submit k x d s) := Steady.secure {}

theorem declareFault_secure (c : FaultCause) (a b : Byte) (s : State) : Secure s (declareFault c a b s) := by
  unfold declareFault
  split
  · exact submit_secure _ _ _ s
  · exact faultEntry_secure c a b s

/-! ### The end of a commit -/

/-- The configuration followed: a commit ends in a flash mode, where each group that stays or becomes configured is in FLASHING or UNLIT
(R4, R172). -/
theorem commitFollowed_secure {s : State} (hb : s.store.busy = true) : Secure s (commitFollowed s) := by
  have hmode : (commitFollowed s).mode = s.mode := (commitFollowed_stands s).mode.trans (commitStored_mode s)
  have hstore := (commitFollowed_after s).store
  have conf : ∀ g, (commitFollowed s).configured g = (commitStored s).configured g := (commitFollowed_frame s).configured
  by_cases hm : s.mode.mode.flashing = true
  · refine .of_flashing (fun hs => safetyInv_of_flashing (by rw [hmode]; exact hm) (fun g hg => ?_) (fun g hg => ?_) ?_ ?_)
      (by rw [hmode]; exact hm)
    · rw [conf] at hg
      rw [commitFollowed_group]
      rcases hw : s.configured g with _ | _
      · rw [commitEffect_out hw hg]; exact hs.unconfigured g hw
      · exact commitEffect_left hw hg
    · rw [conf] at hg
      rw [commitFollowed_group]
      rcases hw : s.configured g with _ | _
      · rw [commitEffect_joined hw hg (hs.unconfigured g hw)]
        dsimp only
        split
        · exact .inr rfl
        · exact .inl rfl
      · rw [commitEffect_kept hw hg]
        exact (stateFitsMode_flashing hm _).1 (hs.states g hw)
    · rw [hstore]
      exact fun _ => (hs.commit hb).2
    · rw [hstore]
      exact fun h => nomatch h
  · have broken : ¬SafetyInv s := fun hs => hm (hs.commit hb).1
    exact ⟨fun hs => absurd hs broken, fun hs => absurd hs broken, fun hs => absurd hs broken⟩

theorem setNormalPending_secure (b : Bool) (s : State) : Secure s (setNormalPending b s) := Steady.secure {}

theorem completeCommit_secure {s : State} (hb : s.store.busy = true) : Secure s (completeCommit s) := by
  have hstore := (commitFollowed_after s).store
  rw [completeCommit_eq]
  unfold actOnPending
  refine (commitFollowed_secure hb).trans (.ite fun _ => (setNormalPending_secure false _).trans (allStopEntry_secure ?_ ?_))
  · show (commitFollowed s).store.nv.valid = true
    rw [hstore]; rfl
  · show (commitFollowed s).store.busy = false
    rw [hstore]; rfl

end Sys2Proof.Machine

/-! PROOFS. The detector unit, the sign link and the lamp monitor keep the invariants: they release no movement, and what they declare orders
every group into FLASHING (R64, R110, R119, R138). -/

namespace Sys2Proof.Machine

open Sys2Proof

/-! ### Detectors -/

theorem DetectorMove.secure {s t : State} (h : DetectorMove s t) : Secure s t := by
  unfold DetectorMove at h
  rw [h]
  exact Steady.secure {}

theorem detectorSample_secure (inputs : BitVec 48) (s : State) : Secure s (detectorSample inputs s) := by
  have begun : Secure s (beginSample s) := Steady.secure {}
  unfold detectorSample
  split
  · exact .refl s
  · exact begun.trans (foldl_secure (fun s d => (sampleDetector_detects inputs s d).1.secure) _ _)

theorem detectorStep_secure (s : State) : Secure s (detectorStep s) := by
  have taken : Secure s { s with parts := { s.parts with detectors := false } } := Steady.secure {}
  exact .ite fun _ => taken.trans (foldl_secure (fun s d => (stepDetector_detects s d).1.secure) _ _)

theorem setDetector_secure (s : State) (d : DetectorNo) (x : Detector) : Secure s (s.setDetector d x) := Steady.secure {}

theorem writeKind_secure (d : DetectorNo) (k : DetectorKind) (s : State) : Secure s (writeKind d k s) := by
  unfold writeKind
  dsimp only
  split
  · exact .refl s
  · exact setDetector_secure s d _

theorem addStandingCalls_secure (d : DetectorNo) (m : Mask) (s : State) : Secure s (addStandingCalls d m s) :=
  .ite fun _ => Steady.secure {}

theorem writeSettings_secure (d : DetectorNo) (offset : Nat) (w : Word) (s : State) : Secure s (writeSettings d offset w s) := by
  unfold writeSettings
  dsimp only
  split
  · exact setDetector_secure s d _
  split
  · exact (setDetector_secure s d _).trans (addStandingCalls_secure d _ _)
  split
  · exact (setDetector_secure s d _).trans (addStandingCalls_secure d _ _)
  split
  · exact setDetector_secure s d _
  · exact setDetector_secure s d _

/-! ### Signs -/

theorem setSign_secure (s : State) (r : SignNo) (x : Sign) : Secure s (s.setSign r x) := Steady.secure {}

theorem submitSign_secure (k : EventKind) (r : SignNo) (w : Word) (s : State) : Secure s (submitSign k r w s) := submit_secure k _ w s

theorem endPoll_secure (s : State) : Secure s (endPoll s) := Steady.secure {}

theorem goodOutcome_secure (p : Poll) (status : Byte) (s : State) : Secure s (goodOutcome p status s) := by
  have lives : Secure s (signLives p s) := by
    unfold signLives
    dsimp only
    split
    · exact setSign_secure s _ _
    · exact (setSign_secure s _ _).trans (submitSign_secure _ _ _ _)
  have taken : ∀ t, Secure t (takeStatus p (statusOf status) t) := fun t => by
    unfold takeStatus
    dsimp only
    split
    · exact .refl t
    · exact (setSign_secure t _ _).trans (submitSign_secure _ _ _ _)
  unfold goodOutcome
  split
  · exact (lives.trans (taken _)).trans (endPoll_secure _)
  · exact endPoll_secure s

theorem missOutcome_secure (p : Poll) (s : State) : Secure s (missOutcome p s) := by
  unfold missOutcome
  dsimp only
  split
  · split
    · exact ((setSign_secure s _ _).trans (endPoll_secure _)).trans (submitSign_secure _ _ _ _)
    · exact (setSign_secure s _ _).trans (endPoll_secure _)
  · exact endPoll_secure s

theorem goodReply_secure (r : Reply) (s : State) : Secure s (goodReply r s) := by
  unfold goodReply
  split
  · exact .ite fun _ => goodOutcome_secure _ _ s
  · exact .refl s

theorem closeWindow_secure (s : State) : Secure s (closeWindow s) := by
  unfold closeWindow
  split
  · exact .ite fun _ => missOutcome_secure _ s
  · exact .refl s

theorem channelByteStart_secure (s : State) : Secure s (channelByteStart s) := by
  rcases channelByteStart_cases s with ⟨_, -, -, -, h⟩ | h <;> rw [h]
  · exact Steady.secure {}
  · exact .refl s

theorem openWindow_secure (s : State) : Secure s (openWindow s) := by
  unfold openWindow
  split
  · exact .ite fun _ => Steady.secure {}
  · exact .refl s

/-- A change of the sign link alone. -/
theorem link_secure (l : SignLink) (s : State) : Secure s { s with link := l } := Steady.secure {}

theorem frameEvent_secure (s : State) : Secure s (frameEvent s) := by
  have frame : ∀ (first : Bool) (t : State), Secure t
      (if (usedSigns { t with link := { t.link with firstFrame := false } }).isEmpty then
        { t with link := { t.link with firstFrame := false, frame := none, line := [], windowOpen := false } }
      else beginFrame (if first then 0 else nextAddress { t with link := { t.link with firstFrame := false } })
        { t with link := { t.link with firstFrame := false } }) := by
    intro first t
    split
    · exact link_secure _ t
    · exact link_secure _ t
  unfold frameEvent
  dsimp only
  split
  · exact (missOutcome_secure _ s).trans (frame _ _)
  · exact frame _ s

/-! ### The lamp monitor -/

/-- A change of the lamp monitor alone. -/
theorem lamps_secure (l : LampMonitor) (s : State) : Secure s { s with lamps := l } := Steady.secure {}

theorem reportLamps_secure (r s : State) : Secure s (reportLamps r s) :=
  foldl_secure (fun s g => by
    have line : ∀ (k : Line) (t : State), Secure t (reportLine r g k t) := fun k t => .ite fun _ => submit_secure _ _ _ t
    exact ((line .stop s).trans (line .clear _)).trans (line .go _)) _ s

theorem declareConflicts_secure (r s : State) : Secure s (declareConflicts r s) :=
  foldl_secure (fun s _ => foldl_secure (fun s _ => .ite fun _ => declareFault_secure _ _ _ s) _ s) _ s

theorem declareUncommanded_secure (r s : State) : Secure s (declareUncommanded r s) :=
  foldl_secure (fun s _ => .ite fun _ => declareFault_secure _ _ _ s) _ s

theorem declareRedOut_secure (r s : State) : Secure s (declareRedOut r s) :=
  foldl_secure (fun s _ => .ite fun _ => declareFault_secure _ _ _ s) _ s

theorem lampPart_secure (x : SenseSample) (s : State) : Secure s (lampPart x s) := by
  have taken : Secure s (judge (reading x s)) := Steady.secure {}
  unfold lampPart takeLampSample
  exact .ite fun _ => ((((taken.trans (reportLamps_secure _ _)).trans (declareConflicts_secure _ _)).trans
    (declareUncommanded_secure _ _)).trans (declareRedOut_secure _ _)).trans (lamps_secure _ _)

end Sys2Proof.Machine

/-! PROOFS. The processor's accesses keep the invariants: a write of the request page releases no movement, and a commit begins in a flash mode
alone, on valid staging tables that no write then reaches (R56, R86, R90, R164, R165, R168, R169). -/

namespace Sys2Proof.Machine

open Sys2Proof

/-! ### The request page -/

theorem forwardWord_secure (word : Nat) (v : Word) (s : State) : Secure s (forwardWord word v s) := Steady.secure {}

theorem requestAccepted_secure (s : State) : Secure s (requestAccepted s) := Steady.secure {}

theorem setRefusals_secure (n : Nat) (s : State) : Secure s (setRefusals n s) := Steady.secure {}

theorem countRefusal_secure (s : State) : Secure s (countRefusal s) := by
  unfold countRefusal
  split
  · rename_i hl
    have hm : s.mode.mode.supervised = true := by
      simp only [limitReached, Bool.and_eq_true] at hl
      exact hl.1.1
    have counted := setRefusals_secure (nextRefusals s) s
    have entry := toFlashEntry_secure .refusals (s := setRefusals (nextRefusals s) s) hm
    exact (counted.trans entry).trans (setRefusals_secure 0 _)
  · exact setRefusals_secure _ s

theorem requestRefused_secure (word : Nat) (reason : Reason) (l : Level) (s : State) : Secure s (requestRefused word reason l s) :=
  (submit_secure _ _ _ s).trans (countRefusal_secure _)

theorem maskWrite_secure (word : Nat) (w : BusWrite) (s : State) : Secure s (maskWrite word w s) :=
  ((forwardWord_secure _ _ s).trans (handChanges_secure _ _)).trans (requestAccepted_secure _)

/-- An accepted mode word: an entry to ALL_STOP is accepted on committed tables alone (R49, R51, R56, R60). -/
theorem modeAct_secure {v : Nat} {s : State} (h : modeRefusal v s = none) : Secure s (modeAct v s) := by
  have valid : s.mode.mode = .flash → v = 1 → s.store.nv.valid = true := fun hm hv => by
    rw [modeRefusal, hm, hv] at h
    by_contra hn
    simp [hn] at h
  unfold modeAct
  split
  · split
    · exact setNormalPending_secure _ s
    · exact setNormalPending_secure _ s
  · rename_i hm
    exact .ite fun _ => toFlashEntry_secure _ (by rw [hm]; rfl)
  · rename_i hm
    exact .ite fun _ => toFlashEntry_secure _ (by rw [hm]; rfl)
  · exact .refl s
  · rename_i hm
    split
    · exact setNormalPending_secure _ s
    · split
      · rename_i hv
        split
        · exact setNormalPending_secure _ s
        · rename_i hb
          exact allStopEntry_secure (valid hm hv) (by simpa using hb)
      · exact darkEntry_secure s
  · exact .ite fun _ => flashEntry_secure _ s
  · exact .refl s

theorem modeWordWrite_secure (w : BusWrite) (s : State) : Secure s (modeWordWrite w s) := by
  unfold modeWordWrite
  dsimp only
  split
  · exact (forwardWord_secure _ _ s).trans (requestRefused_secure _ _ _ _)
  · split
    · exact (forwardWord_secure _ _ s).trans (requestRefused_secure _ _ _ _)
    · rename_i h
      exact ((forwardWord_secure _ _ s).trans (modeAct_secure h)).trans (requestAccepted_secure _)

theorem requestWrite_secure (word : Nat) (w : BusWrite) (s : State) : Secure s (requestWrite word w s) := by
  unfold requestWrite
  split
  · exact .refl s
  split
  · exact requestRefused_secure _ _ _ s
  split
  · exact maskWrite_secure word w s
  · exact modeWordWrite_secure w s

theorem answerRead_secure (v : Word) (s : State) : Secure s (answerRead v s) := Steady.secure {}

/-- The pins driven. -/
theorem bus_secure (b : BusPins) (s : State) : Secure s { s with bus := b } := Steady.secure {}

theorem comparedRead_secure (word : Nat) (e : ByteEnables) (memory : Word) (s : State) : Secure s (comparedRead word e memory s) := by
  have seen : ∀ (b : BusPins) (p : RequestPage), Secure s { s with bus := b, page := p } := fun _ _ => Steady.secure {}
  unfold comparedRead
  dsimp only
  split
  · exact bus_secure _ s
  · split
    · exact bus_secure _ s
    · exact Secure.trans (seen _ _) (submit_secure _ _ _ _)

theorem requestRead_secure (word : Nat) (e : ByteEnables) (l : Level) (memory : Word) (s : State) :
    Secure s (requestRead word e l memory s) := by
  unfold requestRead
  split
  · exact answerRead_secure _ s
  split
  · exact answerRead_secure _ s
  split
  · exact answerRead_secure _ s
  · exact comparedRead_secure word e memory s

/-! ### The table store -/

/-- The staging tables change with no commit in progress alone (R163). -/
theorem staging_secure {s : State} {x : TableStore} (ha : x.nv.active = s.store.nv.active) (hv : x.nv.valid = s.store.nv.valid)
    (hb : x.busy = false) : Secure s { s with store := x } :=
  Steady.secure { tables := ha, valid := hv, commit := fun _ h => absurd (hb.symm.trans h) (by simp) }

theorem writeStaging_secure (offset : Nat) (w : BusWrite) (s : State) : Secure s (writeStaging offset w s).state := by
  unfold writeStaging
  dsimp only
  split
  · exact .refl s
  split
  · exact .refl s
  rename_i hb
  split
  · exact .refl s
  · exact staging_secure rfl rfl (by simpa using hb)

theorem writeLock_secure (w : BusWrite) (s : State) : Secure s (writeLock w s).state := by
  unfold writeLock
  split
  · exact .refl s
  split
  · exact .refl s
  split
  · exact .refl s
  split
  · exact .refl s
  · rename_i hb
    exact staging_secure rfl rfl (by simpa using hb)

theorem setResult_secure (r : CommitResult) (s : State) : Secure s (setResult r s) := Steady.secure {}

/-- A commit begins in START_FLASH, FLASH or DARK, on staging tables that pass validation (R168, R169). -/
theorem requestCommit_secure (s : State) : Secure s (requestCommit s).state := by
  unfold requestCommit
  split
  · exact setResult_secure _ s
  · rename_i hr
    have hm : s.mode.mode.flashing = true := by
      unfold commitRefusal at hr
      split_ifs at hr with _ _ hm
      revert hm
      cases s.mode.mode <;> simp [commitMode, Mode.flashing]
    show Secure s (decideCommit s)
    unfold decideCommit
    split
    · exact (setResult_secure _ s).trans (submit_secure _ _ _ _)
    · rename_i hf
      split
      · exact (setResult_secure _ s).trans (submit_secure _ _ _ _)
      · exact Steady.secure { commit := fun _ _ => ⟨hm, hf⟩ }

theorem writeService_secure (w : BusWrite) (s : State) : Secure s (writeService w s).state := by
  unfold writeService
  dsimp only
  split
  · exact Steady.secure {}
  · exact .refl s

/-! ### The served pages -/

/-- A change of the queue alone. -/
theorem queue_secure (q : Queue) (s : State) : Secure s { s with queue := q } := Steady.secure {}

theorem detectorPageWrite_secure (offset : Nat) (w : BusWrite) (s : State) : Secure s (detectorPageWrite offset w s).state := by
  have calls : ∀ m, Secure s (clearCalls m s) := fun _ => Steady.secure {}
  unfold detectorPageWrite
  dsimp only
  split
  · split
    · exact .refl s
    · exact Steady.secure {}
  split
  · exact writeKind_secure _ _ s
  split
  · exact writeSettings_secure _ _ _ s
  split
  · exact calls _
  · exact calls _

theorem ownerWrite_secure (page offset : Nat) (w : BusWrite) (s : State) : Secure s (ownerWrite page offset w s).state := by
  unfold ownerWrite
  split
  · exact detectorPageWrite_secure offset w s
  split
  · split
    · exact queue_secure _ s
    · exact submit_secure _ _ _ s
  split
  · exact link_secure _ s
  split
  · unfold commitPageWrite
    split
    · exact requestCommit_secure s
    split
    · exact writeLock_secure w s
    · exact writeService_secure w s
  · exact writeStaging_secure _ w s

theorem servedWrite_secure (page offset : Nat) (w : BusWrite) (s : State) : Secure s (servedWrite page offset w s) := by
  have owner := ownerWrite_secure page offset w s
  unfold servedWrite
  split
  · exact .refl s
  · split
    · exact .refl s
    · exact submit_secure _ _ _ s
    · split
      · unfold settle
        split
        · exact owner
        · exact owner.trans (submit_secure _ _ _ _)
      · exact submit_secure _ _ _ s

theorem servedRead_secure (page offset : Nat) (l : Level) (s : State) : Secure s (servedRead page offset l s) := by
  have answered : Secure s (answerRead (servedValue s page offset) { s with latches := latchedBy s page offset }) := Steady.secure {}
  unfold servedRead
  split
  · exact answerRead_secure _ s
  split
  · exact answerRead_secure _ s
  unfold readWord
  dsimp only
  split
  · exact answered.trans (queue_secure _ _)
  split
  · exact answered.trans (queue_secure _ _)
  split
  · exact answered.trans (queue_secure _ _)
  · exact answered

/-! ### Accesses -/

theorem beginAccess_secure (s : State) : Secure s (beginAccess s) := Steady.secure {}

theorem guardedWrite_secure (page offset : Nat) (w : BusWrite) (s : State) : Secure s (guardedWrite page offset w s) := by
  unfold guardedWrite
  split
  · exact (beginAccess_secure s).trans (requestWrite_secure offset w _)
  split
  · exact (beginAccess_secure s).trans (servedWrite_secure page offset w _)
  · exact bus_secure _ s

theorem guardedRead_secure (page offset : Nat) (e : ByteEnables) (l : Level) (memory : Word) (s : State) :
    Secure s (guardedRead page offset e l memory s) := by
  unfold guardedRead
  split
  · exact (beginAccess_secure s).trans (requestRead_secure offset e l memory _)
  split
  · exact (beginAccess_secure s).trans (servedRead_secure page offset l _)
  · exact bus_secure _ s

theorem busWrite_secure (page offset : Nat) (w : BusWrite) (s : State) : Secure s (busWrite page offset w s) := by
  unfold busWrite
  split
  · exact bus_secure _ s
  · exact guardedWrite_secure page offset w s

theorem busRead_secure (page offset : Nat) (e : ByteEnables) (l : Level) (memory : Word) (s : State) :
    Secure s (busRead page offset e l memory s) := by
  unfold busRead
  split
  · exact bus_secure _ s
  · exact guardedRead_secure page offset e l memory s

theorem busAccess_secure (a : Access) (s : State) : Secure s (busAccess a s) := by
  unfold busAccess
  split
  · split
    · exact bus_secure _ s
    · exact guardedWrite_secure _ _ _ s
  split
  · split
    · exact bus_secure _ s
    · exact guardedRead_secure _ _ _ _ _ s
  · exact .refl s

/-- An access part-way through a moment's submissions keeps what it keeps at their end. -/
theorem partWay_secure {access : State → State} (h : ∀ s, Secure s (access s)) (later : Nat) (s : State) :
    Secure s (partWay later access s) := by
  unfold partWay
  split
  · exact h s
  · exact ((queue_secure _ s).trans (h _)).trans (queue_secure _ _)

end Sys2Proof.Machine

/-! PROOFS. The group sequencer's step keeps the invariants: E of a group that gives way advances wherever the prepare-timer of the group it
gives way to does, so that an intergreen has run once the prepare-timer has (R10, R11, R16, R35, R41). -/

namespace Sys2Proof.Machine

open Sys2Proof

@[simp] theorem advanceTimer_elapsed (x : Group) : (advanceTimer x).elapsed = x.elapsed := by
  unfold advanceTimer; split <;> rfl

theorem advanceTimer_prepareTimer {x : Group} (h : x.state = .prepare) : (advanceTimer x).prepareTimer = x.prepareTimer + 1 := by
  simp [advanceTimer, h]

theorem advanceTimer_clearingTimer {x : Group} (h : x.state = .clearing) : (advanceTimer x).clearingTimer = x.clearingTimer + 1 := by
  simp [advanceTimer, h]

/-- What the step of the sequencer due in `s` makes of a group's record: its timer is held back or advances short of its expiry, PREPARE
ends in GO, GO or a PREPARE at its end under a hold ends in CLEARING, or CLEARING ends in STOP (R10, R16, R18, R20, R62). -/
inductive Stepped (s : State) (g : GroupNo) (x y : Group) : Prop
  | heldBack (held : s.parts.heldTimers.getLsbD g.val = true) (state : y.state = x.state) (prepareTimer : y.prepareTimer = x.prepareTimer)
      (clearingTimer : y.clearingTimer = x.clearingTimer) (elapsed : y.elapsed = nextElapsed s.parts g x)
  | advanced (free : s.parts.heldTimers.getLsbD g.val = false) (state : y.state = x.state)
      (prepare : x.state = .prepare → y.prepareTimer = x.prepareTimer + 1 ∧ x.prepareTimer + 1 < s.prepareTime g)
      (clearing : x.state = .clearing → y.clearingTimer = x.clearingTimer + 1 ∧ x.clearingTimer + 1 < s.clearingTime g)
      (elapsed : y.elapsed = nextElapsed s.parts g x)
  | released (left : x.state = .prepare) (free : s.parts.heldTimers.getLsbD g.val = false) (run : s.prepareTime g ≤ x.prepareTimer + 1)
      (state : y.state = .go)
  | truncated (left : x.state.active = true) (state : y.state = .clearing) (clearingTimer : y.clearingTimer = 0) (elapsed : y.elapsed = 0)
  | stopped (left : x.state = .clearing) (state : y.state = .stop) (elapsed : y.elapsed = nextElapsed s.parts g x)

theorem stepEffect_stepped (s : State) (g : GroupNo) (x : Group) : Stepped s g x (stepEffect s.parts (stepStart s) g x).group := by
  rcases h : s.parts.heldTimers.getLsbD g.val with _ | _
  case true =>
    rw [stepEffect_held _ x h]
    exact .heldBack h rfl rfl rfl rfl
  have short (hp : x.state = .prepare → x.prepareTimer + 1 < s.prepareTime g)
      (hg : x.state = .go → x.heldStop = false ∨ min (x.goTimer + 1) 65535 < s.minimumGo g)
      (hc : x.state = .clearing → x.clearingTimer + 1 < s.clearingTime g) :
      Stepped s g x (stepEffect s.parts (stepStart s) g x).group := by
    rw [stepEffect_quiet s.parts (stepStart s) g x h hp hg hc]
    exact .advanced h (by simp) (fun e => ⟨advanceTimer_prepareTimer e, hp e⟩) (fun e => ⟨advanceTimer_clearingTimer e, hc e⟩) (by simp; rfl)
  rcases hx : x.state
  case prepare =>
    by_cases hp : s.prepareTime g ≤ x.prepareTimer + 1
    · rw [stepEffect_prepare (stepStart s) h hx hp]
      by_cases hh : (stepStart s).holdsAct = true ∧ (stepStart s).heldByLine g = true
      · rw [goEffect_held _ hh.1 hh.2]
        exact .truncated (by rw [hx]; rfl) rfl rfl rfl
      · rw [goEffect_free _ (by by_contra k; simp only [not_or, Bool.not_eq_false] at k; exact hh k.symm)]
        exact .released hx h hp rfl
    · exact short (fun _ => by omega) (by simp [hx]) (by simp [hx])
  case go =>
    by_cases hg : x.heldStop = true ∧ s.minimumGo g ≤ min (x.goTimer + 1) 65535
    · rw [stepEffect_heldStop (stepStart s) h hx hg.1 hg.2]
      exact .truncated (by rw [hx]; rfl) rfl rfl rfl
    · refine short (by simp [hx]) (fun _ => ?_) (by simp [hx])
      by_contra k
      simp only [not_or, Bool.not_eq_false, Nat.not_lt] at k
      exact hg k
  case clearing =>
    by_cases hc : s.clearingTime g ≤ x.clearingTimer + 1
    · rw [stepEffect_clearing (stepStart s) h hx hc]
      exact .stopped hx rfl (advanceTimer_elapsed _)
    · exact short (by simp [hx]) (by simp [hx]) fun _ => by omega
  all_goals exact short (by simp [hx]) (by simp [hx]) (by simp [hx])

namespace Stepped

variable {s : State} {g : GroupNo} {x y : Group} (h : Stepped s g x y)
include h

/-- The step brings no group into PREPARE or GO from another state. -/
theorem of_active (hy : y.state.active = true) : x.state.active = true := by
  cases h with
  | heldBack _ a | advanced _ a => rw [← a]; exact hy
  | released l => rw [l]; rfl
  | truncated l => exact l
  | stopped _ a => rw [a] at hy; cases hy

theorem of_inactive (hx : x.state.active = false) : y.state.active = false ∧ y.elapsed = nextElapsed s.parts g x := by
  refine ⟨?_, ?_⟩
  · by_contra k
    rw [h.of_active (by simpa using k)] at hx; cases hx
  · cases h with
    | heldBack _ _ _ _ e | advanced _ _ _ _ e | stopped _ _ e => exact e
    | released l | truncated l => rw [l] at hx; cases hx

theorem fits {m : Mode} (hx : stateFitsMode m x.state = true) : stateFitsMode m y.state = true := by
  cases h with
  | heldBack _ a | advanced _ a => rw [a]; exact hx
  | released l _ _ a => rw [a]; exact (stateFitsMode_active hx (by rw [l]; rfl)).2.2.2
  | truncated l a => rw [a]; exact (stateFitsMode_active hx l).2.2.1
  | stopped l a => rw [a]; revert hx; rw [l]; cases m <;> simp [stateFitsMode]

/-- A group in PREPARE after the step was in PREPARE before; its timer is held back, or advanced short of P. -/
theorem of_prepare (hy : y.state = .prepare) : x.state = .prepare ∧
    ((s.parts.heldTimers.getLsbD g.val = true ∧ y.prepareTimer = x.prepareTimer) ∨
      (s.parts.heldTimers.getLsbD g.val = false ∧ y.prepareTimer = x.prepareTimer + 1 ∧ x.prepareTimer + 1 < s.prepareTime g)) := by
  cases h with
  | heldBack f a b => exact ⟨a.symm.trans hy, .inl ⟨f, b⟩⟩
  | advanced f a b => exact ⟨a.symm.trans hy, .inr ⟨f, b (a.symm.trans hy)⟩⟩
  | released _ _ _ a | truncated _ a | stopped _ a => rw [a] at hy; cases hy

/-- A group that enters GO was in PREPARE, with its prepare-timer at its last advance. -/
theorem of_go (hx : x.state ≠ .go) (hy : y.state = .go) : x.state = .prepare ∧ s.parts.heldTimers.getLsbD g.val = false ∧
    s.prepareTime g ≤ x.prepareTimer + 1 := by
  cases h with
  | heldBack _ a | advanced _ a => exact absurd (a.symm.trans hy) hx
  | released l f r => exact ⟨l, f, r⟩
  | truncated _ a | stopped _ a => rw [a] at hy; cases hy

/-- A group in CLEARING after the step entered CLEARING in it, or was there before and its timer is held back or advanced short of CL. -/
theorem of_clearing (hy : y.state = .clearing) : (y.clearingTimer = 0 ∧ y.elapsed = 0) ∨
    (x.state = .clearing ∧ y.elapsed = nextElapsed s.parts g x ∧
      ((s.parts.heldTimers.getLsbD g.val = true ∧ y.clearingTimer = x.clearingTimer) ∨
        (s.parts.heldTimers.getLsbD g.val = false ∧ y.clearingTimer = x.clearingTimer + 1 ∧ x.clearingTimer + 1 < s.clearingTime g))) := by
  cases h with
  | heldBack f a _ c e => exact .inr ⟨a.symm.trans hy, e, .inl ⟨f, c⟩⟩
  | advanced f a _ c e => exact .inr ⟨a.symm.trans hy, e, .inr ⟨f, c (a.symm.trans hy)⟩⟩
  | truncated _ _ c e => exact .inl ⟨c, e⟩
  | released _ _ _ a | stopped _ a => rw [a] at hy; cases hy

end Stepped

section

variable {s : State} (hd : s.parts.sequencer = true)
include hd

theorem sequencerStep_tables : SameTables s (sequencerStep s) := .of_store (sequencerStep_sweep hd).frame.store

theorem sequencerStep_mode : (sequencerStep s).mode.mode = s.mode.mode := (sequencerStep_sweep hd).frame.modeMode

theorem sequencerStep_stepped {g : GroupNo} (hc : s.configured g = true) : Stepped s g (s.group g) ((sequencerStep s).group g) := by
  rw [(sequencerStep_sweep hd).group (g := g) hc]
  exact stepEffect_stepped s g (s.group g)

/-- After the step nothing is held back. -/
theorem sequencerStep_held (g : GroupNo) : timersHeld (sequencerStep s) g = false ∧ elapsedHeld (sequencerStep s) g = false := by
  have hq : (sequencerStep s).parts.sequencer = false := (sequencerStep_sweep hd).frame.sequencer
  simp [timersHeld, elapsedHeld, hq]

theorem held_due (g : GroupNo) : timersHeld s g = s.parts.heldTimers.getLsbD g.val ∧ elapsedHeld s g = s.parts.heldElapsed.getLsbD g.val := by
  simp [timersHeld, elapsedHeld, hd]

theorem sequencerStep_safetyInv (h : SafetyInv s) : SafetyInv (sequencerStep s) where
  unconfigured := fun g hc => by
    rw [(sequencerStep_tables hd).configured] at hc
    rw [(sequencerStep_sweep hd).unconfigured (g := g) hc]
    exact h.unconfigured g hc
  states := fun g hc => by
    rw [(sequencerStep_tables hd).configured] at hc
    rw [sequencerStep_mode hd]
    exact (sequencerStep_stepped hd hc).fits (h.states g hc)
  exclusive := fun j i hc hj => by
    rw [(sequencerStep_tables hd).inConflict] at hc
    obtain ⟨hjc, hic, -⟩ := (inConflict_iff s j i).1 hc
    exact ((sequencerStep_stepped hd hic).of_inactive (h.exclusive j i hc ((sequencerStep_stepped hd hjc).of_active hj))).1
  tables := (sequencerStep_tables hd).sound h.tables
  configuredMode := fun hm => by
    rw [sequencerStep_mode hd] at hm
    exact (sequencerStep_tables hd).valid.trans (h.configuredMode hm)
  commit := by
    rw [(sequencerStep_sweep hd).frame.store, sequencerStep_mode hd]
    exact h.commit

/-- What is left of an intergreen after the step: the group that gives way holds its E back only where the timer it gives way to is held
back, so that of `left` deciseconds none is lost. -/
theorem intergreen_steps {j i : GroupNo} {left : Nat} (hg : s.active.intergreenOf j i ≤ (s.group j).elapsed + left)
    (hh : elapsedHeld s j = true → timersHeld s i = true) :
    s.active.intergreenOf j i ≤ nextElapsed s.parts j (s.group j) + (if s.parts.heldTimers.getLsbD i.val then left else left - 1) := by
  have hb : s.active.intergreenOf j i < 256 := ((s.active.intergreen.get j).get i).isLt
  rw [(held_due hd j).2, (held_due hd i).1] at hh
  unfold nextElapsed satAdd Config.wordLimit
  split
  · rename_i he
    rw [hh he]; exact hg
  · split <;> omega

theorem sequencerStep_intergreenInv (h : SafetyInv s) (hg : IntergreenInv s) : IntergreenInv (sequencerStep s) where
  clearing := fun g hc hst => by
    rw [(sequencerStep_tables hd).configured] at hc
    rw [(sequencerStep_tables hd).clearingTime, (sequencerStep_held hd g).1, (sequencerStep_held hd g).2]
    have hb : s.clearingTime g < 256 := (s.record g).clearingTime.isLt
    rcases (sequencerStep_stepped hd hc).of_clearing hst with ⟨ct, e⟩ | ⟨hx, e, ⟨f, ct⟩ | ⟨f, ct, hl⟩⟩
    · rw [ct, e]
      exact ⟨rfl, h.clearingTime_pos hc, rfl⟩
    all_goals
      obtain ⟨h1, h2, h3⟩ := hg.clearing g hc hx
      rw [(held_due hd g).1, (held_due hd g).2, f] at h3
      rw [e, ct, nextElapsed, h3]
    · exact ⟨h1, h2, rfl⟩
    · exact ⟨by simp [satAdd, Config.wordLimit]; omega, hl, rfl⟩
  prepare := fun g hc hst => by
    rw [(sequencerStep_tables hd).configured] at hc
    rw [(sequencerStep_tables hd).prepareTime]
    obtain ⟨hx, ⟨-, e⟩ | ⟨-, e, hl⟩⟩ := (sequencerStep_stepped hd hc).of_prepare hst <;> rw [e]
    · exact hg.prepare g hc hx
    · exact hl
  approach := fun j i hc hst => by
    rw [(sequencerStep_tables hd).inConflict] at hc
    obtain ⟨hjc, hic, -⟩ := (inConflict_iff s j i).1 hc
    obtain ⟨hx, hi⟩ := (sequencerStep_stepped hd hic).of_prepare hst
    have hj := ((sequencerStep_stepped hd hjc).of_inactive (h.inactive hc (by rw [hx]; rfl))).2
    obtain ⟨ha, hh⟩ := hg.approach j i hc hx
    have left := intergreen_steps hd ha hh
    rw [(sequencerStep_tables hd).active, (sequencerStep_tables hd).prepareTime, (sequencerStep_held hd j).2, hj]
    refine ⟨left.trans (Nat.add_le_add_left ?_ _), fun k => nomatch k⟩
    obtain ⟨f, e⟩ | ⟨f, e, -⟩ := hi <;> rw [f, e]
    · exact Nat.le_refl _
    · exact Nat.le_of_eq (Nat.sub_sub ..)

/-- A group that enters GO in the step has its intergreens run: its prepare-timer made its last advance, and E of the groups that give way
advanced with it. -/
theorem sequencerStep_goEntries (h : SafetyInv s) (hg : IntergreenInv s) : GoEntriesClear s (sequencerStep s) := by
  intro j i hct hni hi
  have hc := (sequencerStep_tables hd).inConflict j i ▸ hct
  obtain ⟨hjc, hic, -⟩ := (inConflict_iff s j i).1 hc
  obtain ⟨hx, f, run⟩ := (sequencerStep_stepped hd hic).of_go hni hi
  have hj := ((sequencerStep_stepped hd hjc).of_inactive (h.inactive hc (by rw [hx]; rfl))).2
  obtain ⟨ha, hh⟩ := hg.approach j i hc hx
  have left := intergreen_steps hd ha hh
  have he : (sequencerStep s).active.intergreenOf j i ≤ ((sequencerStep s).group j).elapsed := by
    rw [(sequencerStep_tables hd).active, hj]
    refine left.trans (Nat.le_of_eq ?_)
    rw [f, if_neg (by simp)]
    omega
  exact ⟨stop_of_intergreen (sequencerStep_safetyInv hd h) (sequencerStep_intergreenInv hd h hg) hct hi he, he⟩

end

theorem sequencerStep_guards (s : State) : Guards s (sequencerStep s) := by
  by_cases hd : s.parts.sequencer = true
  · exact ⟨sequencerStep_safetyInv hd, sequencerStep_intergreenInv hd, sequencerStep_goEntries hd⟩
  · rw [sequencerStep, if_neg hd]
    exact (Secure.refl s).guards

end Sys2Proof.Machine

/-! PROOFS. The evaluation keeps the invariants: it grants groups no two of which are in conflict, each with its intergreens run once its PREPARE
has (R26, R28, R30, R37, R41). -/

namespace Sys2Proof.Machine

open Sys2Proof

/-- A group in conflict with a granted one is not granted, is in neither PREPARE nor GO, and has no more left of its intergreen than the
PREPARE of the granted group takes (R26, R28, R37). -/
theorem granted_approach {s : State} (h : SafetyInv s) {j i : GroupNo} (hc : s.inConflict j i = true) (hi : i ∈ grantedGroups s) :
    j ∉ grantedGroups s ∧ (s.group j).state.active = false ∧ s.active.intergreenOf j i ≤ (s.group j).elapsed + s.prepareTime i := by
  obtain ⟨hr, hbefore⟩ := (mem_grantedGroups_iff s i).1 hi
  obtain ⟨hback, hne, -⟩ := h.conflict hc
  obtain ⟨-, -, -, -, -, -, hw⟩ := (releasable_iff s i).1 hr
  have hp : s.prepareTime i < 256 := (s.record i).prepareTime.isLt
  have inactive : ∀ k, s.inConflict k i = true → (s.group k).state.active = false := fun k hk => by
    by_contra ha
    rw [waitOf_blocked hk (by simpa using ha)] at hw
    omega
  refine ⟨fun hj => ?_, inactive j hc, ?_⟩
  · rcases ranksBefore_total (s := s) hne with k | k
    · exact absurd (hbefore j hj k) (by rw [hc]; simp)
    · exact absurd (((mem_grantedGroups_iff s j).1 hj).2 i hi k) (by rw [hback]; simp)
  · have left := (foldl_withTerm_largest (i := i) 0 fun k hk => inactive k ((mem_conflictsOf s i k).1 hk)).2.1 j
      ((mem_conflictsOf s i j).2 hc)
    rw [← waitOf_eq] at left
    unfold State.remaining at left
    omega

section

variable {s : State} (hd : s.parts.arbiter = true)
include hd

theorem evaluate_sweep : ∃ r, Sweep (grantsEffect (grantedGroups s) (grantStart r s)) (grantStart r s) (evaluate s) :=
  (evaluate_move hd).imp fun _ h => h.1

theorem evaluate_frame : (evaluate s).store = s.store ∧ (evaluate s).mode.mode = s.mode.mode ∧
    (evaluate s).parts.sequencer = s.parts.sequencer := by
  obtain ⟨r, hs⟩ := evaluate_sweep hd
  exact ⟨hs.frame.store, hs.frame.modeMode, hs.frame.sequencer⟩

theorem evaluate_tables : SameTables s (evaluate s) := .of_store (evaluate_frame hd).1

/-- A granted group enters PREPARE, or GO where its P is 0; E stands (R14, R30). -/
theorem evaluate_granted {g : GroupNo} (hg : g ∈ grantedGroups s) : ((evaluate s).group g).elapsed = (s.group g).elapsed ∧
    ((0 < s.prepareTime g ∧ ((evaluate s).group g).state = .prepare ∧ ((evaluate s).group g).prepareTimer = 0) ∨
      (s.prepareTime g = 0 ∧ ((evaluate s).group g).state = .go)) := by
  obtain ⟨r, hs⟩ := evaluate_sweep hd
  obtain ⟨-, hc, -, hl⟩ := granted_facts hg
  have hp : (grantStart r s).prepareTime g = s.prepareTime g := rfl
  rw [hs.group (g := g) hc, grantsEffect_granted (s := grantStart r s) hg hl, hp]
  split
  · rename_i h; exact ⟨rfl, .inl ⟨h, rfl, rfl⟩⟩
  · rename_i h; exact ⟨rfl, .inr ⟨Nat.eq_zero_of_not_pos h, rfl⟩⟩

theorem evaluate_other {g : GroupNo} (hg : g ∉ grantedGroups s) : (evaluate s).group g = s.group g := by
  obtain ⟨r, hs⟩ := evaluate_sweep hd
  rcases hc : s.configured g with _ | _
  · exact hs.unconfigured (g := g) hc
  · rw [hs.group (g := g) hc, grantsEffect_other hg]; rfl

/-- The evaluation holds back the timers of the groups it grants, and no E (R35). -/
theorem evaluate_held (g : GroupNo) : elapsedHeld (evaluate s) g = elapsedHeld s g ∧
    timersHeld (evaluate s) g = (timersHeld s g || (s.parts.sequencer && decide (g ∈ grantedGroups s))) := by
  obtain ⟨r, hs⟩ := evaluate_sweep hd
  have ht : (evaluate s).parts.heldTimers.getLsbD g.val = (s.parts.heldTimers.getLsbD g.val ||
      (s.parts.sequencer && (s.configured g && (grantsEffect (grantedGroups s) (grantStart r s) g).timers))) := hs.timers g
  have he : (evaluate s).parts.heldElapsed.getLsbD g.val = (s.parts.heldElapsed.getLsbD g.val ||
      (s.parts.sequencer && (s.configured g && (grantsEffect (grantedGroups s) (grantStart r s) g).elapsed))) := hs.elapsed g
  simp only [timersHeld, elapsedHeld, (evaluate_frame hd).2.2, ht, he]
  by_cases hg : g ∈ grantedGroups s
  · obtain ⟨-, hc, -, hl⟩ := granted_facts hg
    rw [grantsEffect_granted (s := grantStart r s) hg hl, hc]
    split <;> cases s.parts.sequencer <;> simp [hg, Effect.enter]
  · rw [grantsEffect_other hg]
    simp [hg, Effect.stay]

theorem evaluate_state {g : GroupNo} (hg : g ∈ grantedGroups s) : ((evaluate s).group g).state.active = true := by
  rcases (evaluate_granted hd hg).2 with ⟨-, e, -⟩ | ⟨-, e⟩ <;> rw [e] <;> rfl

/-- A group in PREPARE or GO after the evaluation finds none in conflict with it granted, and each in neither state before. -/
theorem evaluate_conflict (h : SafetyInv s) {j i : GroupNo} (hc : s.inConflict j i = true) (hi : ((evaluate s).group i).state.active = true) :
    j ∉ grantedGroups s ∧ (s.group j).state.active = false := by
  by_cases hg : i ∈ grantedGroups s
  · obtain ⟨hn, ha, -⟩ := granted_approach h hc hg
    exact ⟨hn, ha⟩
  · rw [evaluate_other hd hg] at hi
    refine ⟨fun hj => ?_, h.inactive hc hi⟩
    rw [(granted_approach h (h.conflict hc).1 hj).2.1] at hi
    cases hi

theorem evaluate_safetyInv (h : SafetyInv s) : SafetyInv (evaluate s) where
  unconfigured := fun g hc => by
    rw [(evaluate_tables hd).configured] at hc
    rw [evaluate_other hd fun hg => by rw [(granted_facts hg).2.1] at hc; cases hc]
    exact h.unconfigured g hc
  states := fun g hc => by
    rw [(evaluate_tables hd).configured] at hc
    rw [(evaluate_frame hd).2.1]
    by_cases hg : g ∈ grantedGroups s
    · rw [(granted_facts hg).1]
      rcases (evaluate_granted hd hg).2 with ⟨-, e, -⟩ | ⟨-, e⟩ <;> rw [e] <;> rfl
    · rw [evaluate_other hd hg]; exact h.states g hc
  exclusive := fun j i hc hj => by
    rw [(evaluate_tables hd).inConflict] at hc
    obtain ⟨hi, ha⟩ := evaluate_conflict hd h (h.conflict hc).1 hj
    rw [evaluate_other hd hi]; exact ha
  tables := (evaluate_tables hd).sound h.tables
  configuredMode := fun hm => by
    rw [(evaluate_frame hd).2.1] at hm
    exact (evaluate_tables hd).valid.trans (h.configuredMode hm)
  commit := by
    rw [(evaluate_frame hd).1, (evaluate_frame hd).2.1]
    exact h.commit

theorem evaluate_intergreenInv (h : SafetyInv s) (hg : IntergreenInv s) : IntergreenInv (evaluate s) where
  clearing := fun g hc hst => by
    rw [(evaluate_tables hd).configured] at hc
    have hn : g ∉ grantedGroups s := fun k => by
      have ha := evaluate_state hd k
      rw [hst] at ha; cases ha
    rw [evaluate_other hd hn] at hst ⊢
    rw [(evaluate_tables hd).clearingTime, (evaluate_held hd g).1, (evaluate_held hd g).2, decide_eq_false hn, Bool.and_false, Bool.or_false]
    exact hg.clearing g hc hst
  prepare := fun g hc hst => by
    rw [(evaluate_tables hd).configured] at hc
    rw [(evaluate_tables hd).prepareTime]
    by_cases hn : g ∈ grantedGroups s
    · rcases (evaluate_granted hd hn).2 with ⟨hp, -, e⟩ | ⟨-, e⟩
      · rw [e]; exact hp
      · rw [hst] at e; cases e
    · rw [evaluate_other hd hn] at hst ⊢
      exact hg.prepare g hc hst
  approach := fun j i hc hst => by
    rw [(evaluate_tables hd).inConflict] at hc
    have hj := (evaluate_conflict hd h hc (by rw [hst]; rfl)).1
    rw [(evaluate_tables hd).active, (evaluate_tables hd).prepareTime, evaluate_other hd hj, (evaluate_held hd j).1, (evaluate_held hd i).2]
    by_cases hi : i ∈ grantedGroups s
    · rcases (evaluate_granted hd hi).2 with ⟨-, -, e⟩ | ⟨-, e⟩
      · rw [e]
        refine ⟨(granted_approach h hc hi).2.2, fun k => ?_⟩
        have due : s.parts.sequencer = true := by
          rw [elapsedHeld, Bool.and_eq_true] at k; exact k.1
        simp [due, hi]
      · rw [hst] at e; cases e
    · rw [evaluate_other hd hi] at hst ⊢
      obtain ⟨left, hh⟩ := hg.approach j i hc hst
      exact ⟨left, fun k => by rw [hh k]; rfl⟩

/-- A group that the evaluation brings into GO is a granted one with P at 0, which leaves no intergreen to run. -/
theorem evaluate_goEntries (h : SafetyInv s) (hg : IntergreenInv s) : GoEntriesClear s (evaluate s) := by
  intro j i hct hni hi
  have hc := (evaluate_tables hd).inConflict j i ▸ hct
  have granted : i ∈ grantedGroups s := by
    by_contra hn
    rw [evaluate_other hd hn] at hi
    exact hni hi
  obtain ⟨hj, -, left⟩ := granted_approach h hc granted
  have he : (evaluate s).active.intergreenOf j i ≤ ((evaluate s).group j).elapsed := by
    rw [(evaluate_tables hd).active, evaluate_other hd hj]
    rcases (evaluate_granted hd granted).2 with ⟨-, e, -⟩ | ⟨hp, -⟩
    · rw [hi] at e; cases e
    · rw [hp] at left; exact left
  exact ⟨stop_of_intergreen (evaluate_safetyInv hd h) (evaluate_intergreenInv hd h hg) hct hi he, he⟩

end

theorem evaluate_guards (s : State) : Guards s (evaluate s) := by
  by_cases hd : s.parts.arbiter = true
  · exact ⟨evaluate_safetyInv hd, evaluate_intergreenInv hd, evaluate_goEntries hd⟩
  · rw [show evaluate s = s by simp [evaluate, hd]]
    exact (Secure.refl s).guards

end Sys2Proof.Machine

/-! PROOFS. The mode controller's part of a decisecond event, and the clock, keep the invariants (R1, R47, R48, R52, R54, R57, R60, R62). -/

namespace Sys2Proof.Machine

open Sys2Proof

/-! ### The parts of an event -/

/-- A part of the present event taken, but not the sequencer's step. -/
theorem parts_secure {s : State} {p : EventParts} (hq : p.sequencer = s.parts.sequencer) (ht : p.heldTimers = s.parts.heldTimers)
    (he : p.heldElapsed = s.parts.heldElapsed) : Secure s { s with parts := p } :=
  Steady.secure { sequencer := hq, heldTimers := ht, heldElapsed := he }

theorem markPart_secure (s : State) : Secure s (markPart s) := by
  have taken : Secure s { s with parts := { s.parts with mark := false } } := parts_secure rfl rfl rfl
  unfold markPart
  exact .ite fun _ => by
    dsimp only
    split
    · exact taken.trans (submit_secure _ _ _ _)
    · exact taken

/-- The advance of the clock makes the sequencer's step due with nothing held back. -/
theorem advanceClock_held (s : State) (g : GroupNo) : timersHeld (advanceClock s) g = false ∧ elapsedHeld (advanceClock s) g = false := by
  simp [timersHeld, elapsedHeld, advanceClock, EventParts.due]

theorem advanceClock_secure (s : State) : Secure s (advanceClock s) where
  safety := fun h => ⟨h.unconfigured, h.states, h.exclusive, h.tables, h.configuredMode, h.commit⟩
  intergreen := fun _ h => {
    clearing := fun g hc hst => by
      obtain ⟨h1, h2, -⟩ := h.clearing g hc hst
      obtain ⟨ht, he⟩ := advanceClock_held s g
      exact ⟨h1, h2, he.trans ht.symm⟩
    prepare := h.prepare
    approach := fun j i hc hst => ⟨(h.approach j i hc hst).1, fun k => by rw [(advanceClock_held s j).2] at k; cases k⟩ }
  noGo := fun _ _ h => h

/-! ### The mode controller -/

/-- A change of the mode controller's values other than the mode. -/
theorem controller_secure {s : State} {m : ModeControl} (h : m.mode = s.mode.mode) : Secure s { s with mode := m } :=
  Steady.secure { mode := h, commit := fun hc hb => h ▸ hc hb }

theorem startFlashEnd_secure {s : State} (hm : s.mode.mode = .startFlash) : Secure s (startFlashEnd s) := by
  unfold startFlashEnd
  split
  · rename_i h
    exact (setNormalPending_secure false s).trans (allStopEntry_secure h.2.1 h.2.2)
  · exact resetFlash_secure hm

theorem advanceModeTimer_secure (s : State) : Secure s (advanceModeTimer s) := by
  unfold advanceModeTimer
  split
  · rename_i hm
    split
    · exact startFlashEnd_secure hm
    · exact controller_secure rfl
  · rename_i hm
    split
    · exact normalEntry_secure hm
    · exact controller_secure rfl
  · split
    · exact flashEntry_secure _ s
    · exact controller_secure rfl
  · exact .refl s

theorem modeTimerPart_secure (s : State) : Secure s (modeTimerPart s) := by
  have taken : Secure s { s with parts := { s.parts with modeTimer := false, heldModeTimer := false } } := parts_secure rfl rfl rfl
  unfold modeTimerPart
  exact .ite fun _ => taken.trans (.ite fun _ => advanceModeTimer_secure _)

theorem advanceLiveness_secure {s : State} (hm : s.mode.mode.supervised = true) : Secure s (advanceLiveness s) := by
  have counted : ∀ n, Secure s { s with store := { s.store with nv := { s.store.nv with livenessLosses := n } } } :=
    fun _ => Steady.secure {}
  unfold advanceLiveness
  split
  · exact (counted _).trans (toFlashEntry_secure .liveness hm)
  · exact Steady.secure {}

theorem livenessPart_secure (s : State) : Secure s (livenessPart s) := by
  have taken : Secure s { s with parts := { s.parts with liveness := false, heldLiveness := false } } := parts_secure rfl rfl rfl
  unfold livenessPart
  refine .ite fun _ => taken.trans (.ite fun hr => advanceLiveness_secure ?_)
  simp only [livenessRuns, Bool.and_eq_true] at hr
  exact hr.1.2

theorem holdEdge_secure (line : Fin 2) (level : Bool) (s : State) : Secure s (holdEdge line level s) := by
  have told : Secure s (holdStart line level s) := submit_secure _ _ _ s
  rw [holdEdge_eq]
  split
  · exact told.trans (holdSweep_secure _)
  · exact told

theorem sampleHold_secure (line : Fin 2) (x : Bool) (s : State) : Secure s (sampleHold line x s) := by
  have filtered : Secure s (setHoldFilter line ((holdFilter s line).sample x) s) := by
    unfold setHoldFilter
    split <;> exact controller_secure rfl
  unfold sampleHold
  dsimp only
  split
  · exact filtered
  · exact filtered.trans (holdEdge_secure _ _ _)

theorem holdPart_secure (line : Fin 2) (x : Bool) (s : State) : Secure s (holdPart line x s) := by
  have taken : Secure s (holdTaken line s) := by
    unfold holdTaken
    split <;> exact parts_secure rfl rfl rfl
  exact .ite fun _ => taken.trans (sampleHold_secure _ _ _)

theorem switchPart_secure (closed : Bool) (s : State) : Secure s (switchPart closed s) := by
  have taken : Secure s { s with parts := { s.parts with switch := false } } := parts_secure rfl rfl rfl
  have sampled : ∀ (u : State) (f : Filter), Secure u { u with mode := { u.mode with switch := f } } := fun _ _ => controller_secure rfl
  unfold switchPart sampleSwitch
  exact .ite fun _ => taken.trans ((sampled _ _).trans (.ite fun _ => flashEntry_secure _ _))

theorem modeStep_secure (h0 h1 closed : Bool) (s : State) : Secure s (modeStep h0 h1 closed s) :=
  ((((modeTimerPart_secure s).trans (livenessPart_secure _)).trans (holdPart_secure 0 h0 _)).trans (holdPart_secure 1 h1 _)).trans
    (switchPart_secure closed _)

end Sys2Proof.Machine

/-! PROOFS. Every step keeps the invariants, by what each command keeps; the resets end in START_FLASH or hold every group in UNLIT
(R22, R37, R41, R67, R162, R167, R172, R173). -/

namespace Sys2Proof.Machine

open Sys2Proof

/-! ### The resets -/

/-- A reset asserted leaves no group lit, and the tables as they were committed. -/
theorem reset_secure {s t : State} (h : SetBack t) (hu : ∀ g, t.group g = Group.unconfigured) (hb : t.store.busy = false)
    (ht : SafetyInv s → t.store.sound) : Secure s t := by
  have hm : t.mode.mode.flashing = true := by rw [h.mode]; rfl
  exact .of_flashing (fun hs => safetyInv_of_flashing hm (fun g _ => hu g) (fun g _ => .inr (by rw [hu g]; rfl)) (ht hs)
    fun k => by rw [hb] at k; cases k) hm

theorem beginReset_secure (r : ResetAssertion) (s : State) : Secure s (beginReset r s) := by
  obtain ⟨kind, _ | p⟩ := r
  · exact reset_secure (setBack_assertReset kind s) reset_group rfl fun hs => hs.tables
  · have done : Secure s (accessDone p s) := .ite fun _ => busAccess_secure p.access s
    refine done.trans (Secure.trans ?_ (bus_secure _ _))
    exact reset_secure (setBack_assertReset kind _) reset_group rfl fun hs => hs.tables

theorem leaveReset_secure {s : State} (straps : BitVec 4) {nv : NonVolatile} (ha : nv.active = s.store.nv.active) (hv : nv.valid = s.store.nv.valid) :
    Secure s (leaveReset straps nv s) := by
  have h := atReset_leaveReset straps nv s
  refine .of_flashing (fun hs => h.safetyInv fun k => ?_) (by rw [h.setBack.mode]; rfl)
  have k : nv.valid = true := k
  show nv.active.firstViolation = none
  rw [ha]; exact hs.tables (hv.symm.trans k)

theorem endReset_secure (kind : ResetKind) (straps : BitVec 4) (closed : Bool) (s : State) : Secure s (endReset kind straps closed s) := by
  have tables : (clearLocks kind closed s.store.nv).active = s.store.nv.active ∧ (clearLocks kind closed s.store.nv).valid = s.store.nv.valid := by
    rw [clearLocks_eq]; exact ⟨rfl, rfl⟩
  rcases endReset_cases kind straps closed s with e | ⟨a, b, e⟩ | e <;> rw [e]
  · exact .refl s
  · exact Steady.secure { tables := tables.1, valid := tables.2 }
  · exact leaveReset_secure straps tables.1 tables.2

/-! ### Every command -/

theorem exec_write_secure {c : Instr} {page offset : Nat} {w : BusWrite} (h : writeOf c = some (page, offset, w)) (s : State) :
    ∃ t, exec c s = .next t ∧ Guards s t := by
  obtain ⟨n, hn⟩ := exec_write h s
  exact ⟨_, hn, (partWay_secure (busWrite_secure page offset w) n s).guards⟩

theorem exec_read_secure {c : Instr} {page offset : Nat} {e : ByteEnables} {memory : Word} (h : readOf c = some (page, offset, e, memory))
    (s : State) : ∃ t, exec c s = .next t ∧ Guards s t := by
  obtain ⟨n, l, hn⟩ := exec_read h s
  exact ⟨_, hn, (partWay_secure (busRead_secure page offset e l memory) n s).guards⟩

/-- Every command keeps the invariants, and the sequencer's step and the evaluation alone bring a group into GO. -/
theorem exec_guards (c : Instr) (s : State) : ∃ t, exec c s = .next t ∧ Guards s t := by
  have sequencer := sequencerStep_guards s
  have secure : ∀ {t : State}, exec c s = .next t → Secure s t → ∃ t, exec c s = .next t ∧ Guards s t := fun h k => ⟨_, h, k.guards⟩
  cases c
  case resetAsserted r => exact secure rfl (beginReset_secure r s)
  case powerLoss => exact secure rfl (beginReset_secure ⟨.powerOn, none⟩ s)
  case resetEnd => exact secure rfl (endReset_secure _ _ _ s)
  case decisecondEvent =>
    refine secure rfl ?_
    split
    · exact .refl s
    · exact advanceClock_secure s
  case groupSequencerStep => exact ⟨_, rfl, sequencer⟩
  case prepareExpiry | goTimerReachesMg | clearingExpiry => exact ⟨_, rfl, .ite sequencer⟩
  case evaluation => exact ⟨_, rfl, evaluate_guards s⟩
  case modeControllerStep => exact secure rfl (modeStep_secure _ _ _ s)
  case startFlashExpiry | allStopExpiry | flashEntryTimerExpiry => exact secure rfl (.ite fun _ => modeTimerPart_secure s)
  case livenessExpiry => exact secure rfl (.ite fun _ => livenessPart_secure s)
  case hold => exact secure rfl (.ite fun _ => holdPart_secure _ _ s)
  case commissioningSwitchChange => exact secure rfl (.ite fun _ => switchPart_secure _ s)
  case lampSample => exact secure rfl (lampPart_secure _ s)
  case conflict | uncommandedGo | redOut | lampFail => exact secure rfl (.ite fun _ => lampPart_secure _ s)
  case detectorSample => exact secure rfl (detectorSample_secure _ s)
  case activation | deactivation | detCount => exact secure rfl (.ite fun _ => detectorSample_secure _ s)
  case detectorStep => exact secure rfl (detectorStep_secure s)
  case stuckOn | stuckOff => exact secure rfl (.ite fun _ => detectorStep_secure s)
  case frameEvent =>
    have taken : Secure s { s with parts := { s.parts with signs := false } } := parts_secure rfl rfl rfl
    exact secure rfl (.ite fun _ => taken.trans (frameEvent_secure _))
  case goodReply => exact secure rfl (goodReply_secure _ s)
  case replyMiss => exact secure rfl (closeWindow_secure s)
  case signSilent => exact secure rfl (.ite fun _ => closeWindow_secure s)
  case channelByteStart => exact secure rfl (channelByteStart_secure s)
  case replyWindowOpen => exact secure rfl (openWindow_secure s)
  case timeMark => exact secure rfl (markPart_secure s)
  case commitCompletion => exact secure rfl (.ite completeCommit_secure)
  case passedAccess => exact secure rfl (busAccess_secure _ s)
  case refusalLimitReached => exact secure rfl (.ite fun _ => busWrite_secure _ _ _ s)
  case requestBaseRead | lowWordRead => exact exec_read_secure rfl s
  case take => exact exec_read_secure rfl s
  all_goals exact exec_write_secure rfl s

theorem step_guards {s t : State} (h : step s = .next t) : Guards s t := by
  unfold step at h
  split at h
  · obtain rfl := Host.Outcome.next.inj h
    exact (queue_secure _ s).guards
  · rename_i c rest _
    have waiting : Secure s { s with pending := rest } := Steady.secure {}
    obtain ⟨u, hu, hk⟩ := exec_guards c { s with pending := rest }
    obtain rfl := Host.Outcome.next.inj (hu.symm.trans h)
    exact ⟨fun hs => hk.safety (waiting.safety hs), fun hs hg => hk.intergreen (waiting.safety hs) (waiting.intergreen hs hg),
      fun hs hg => hk.goEntries (waiting.safety hs) (waiting.intergreen hs hg)⟩

/-- Settles O57: every command keeps the safety invariant, the moves of groups by what they make of each group's record, the entries to a
flash mode by the states they order, the evaluation by the walk. -/
theorem everyStepKeepsTheSafetyInvariant : Obligations.EveryStepKeepsTheSafetyInvariant :=
  fun _ _ hs h => (step_guards h).safety hs

/-- Settles O59: every command keeps the intergreen invariant, and the sequencer's step and the evaluation, which alone bring a group into GO,
do so with its intergreens run. -/
theorem intergreensRunBeforeEveryGo : Obligations.IntergreensRunBeforeEveryGo :=
  fun _ _ hs hg h => ⟨(step_guards h).intergreen hs hg, (step_guards h).goEntries hs hg⟩

end Sys2Proof.Machine

/-! PROOFS. What the safety invariant says of the lamps and of the movements (R37, R67, R172). -/

namespace Sys2Proof.Machine

open Sys2Proof

/-- No GO line is driven for a group in FLASHING or UNLIT (R6). -/
theorem lineDrive_go_off (r : GroupRecord) {st : GroupState} (h : st = .flashing ∨ st = .unlit) : lineDrive r st .go = .off := by
  rcases h with rfl | rfl <;> rfl

/-- A line that is not driven is not on (R7). -/
theorem lineOn_of_drive_off {s : State} {g : GroupNo} {line : Line} (h : s.drive g line = .off) : s.lineOn g line = false := by
  rw [State.lineOn, h]

/-- An unconfigured group drives no line (R4). -/
theorem drive_unconfigured {s : State} {g : GroupNo} (h : s.configured g = false) (line : Line) : s.drive g line = .off := by
  simp [State.drive, h]

/-- A group in FLASHING or UNLIT drives no GO line, held or not (R6, R22). -/
theorem drive_go_off {s : State} {g : GroupNo} (h : (s.group g).state = .flashing ∨ (s.group g).state = .unlit) :
    s.drive g .go = .off := by
  unfold State.drive
  split
  · rfl
  · exact lineDrive_go_off _ h

theorem GroupState.active_iff (st : GroupState) : st.active = true ↔ st = .prepare ∨ st = .go := by
  simp [GroupState.active]

theorem Mode.flashing_iff (m : Mode) : m.flashing = true ↔ m = .startFlash ∨ m = .flash ∨ m = .dark ∨ m = .faultFlash := by
  simp [Mode.flashing, or_assoc]

namespace SafetyInv

variable {s : State} (h : SafetyInv s)
include h

/-- In the flash modes and in DARK no GO line is on (R67). -/
theorem lineOn_go (hm : s.mode.mode.flashing = true) (g : GroupNo) : s.lineOn g .go = false := by
  refine lineOn_of_drive_off ?_
  rcases hc : s.configured g with _ | _
  · exact drive_unconfigured hc .go
  · exact drive_go_off ((stateFitsMode_flashing hm _).1 (h.states g hc))

end SafetyInv

/-- Settles O58: by the states that each mode allows, the exclusion, and the tables' validity outside the flash modes. -/
theorem safetyInvariantKeepsMovementsApart : Obligations.SafetyInvariantKeepsMovementsApart := by
  unfold Obligations.SafetyInvariantKeepsMovementsApart
  refine fun s h => ⟨fun hm => h.lineOn_go ((Mode.flashing_iff _).2 hm), fun j i hc hj => ?_, fun hm => ?_⟩
  · have hi := h.exclusive j i hc ((GroupState.active_iff _).2 hj)
    rwa [← Bool.not_eq_true, GroupState.active_iff, not_or] at hi
  · have hv := h.configuredMode (by rcases hm with hm | hm | hm <;> rw [hm] <;> rfl)
    exact ⟨hv, h.tables hv⟩

end Sys2Proof.Machine

/-! PROOFS. Refused writes to the request page below the refusal limit (R49, R77, R86, R91, R92, R96, R98). -/

namespace Sys2Proof.Machine

open Sys2Proof

/-- A command of the GO mask or of the mode word is a write to a word 0 to 8 of the request page. -/
theorem exec_requestWrite {c : Instr} {word : Nat} {w : BusWrite} (h : requestWriteOf c = some (word, w)) :
    word < 9 ∧ ∀ s, exec c s = .next (busWrite 0 word w s) := by
  rcases hm : maskWriteOf c with _ | p
  · rw [requestWriteOf, hm, Option.none_or, Option.map_eq_some_iff] at h
    obtain ⟨w', hw, he⟩ := h
    obtain ⟨rfl, rfl⟩ := Prod.mk.inj he
    refine ⟨by omega, fun s => ?_⟩
    cases c <;> simp only [modeWordWriteOf, Option.some.injEq, reduceCtorEq] at hw
    all_goals subst hw; rfl
  · rw [requestWriteOf, hm, Option.some_or, Option.some.injEq] at h
    obtain ⟨h8, he⟩ := exec_maskWrite (hm.trans (congrArg some h))
    exact ⟨by omega, he⟩

/-- Below the refusal limit one more refusal does not reach it (R55). -/
theorem limitReached_of_below {s : State} (h : belowRefusalLimit s) : limitReached s = false := by
  unfold limitReached
  rw [supervised_eq]
  rcases h with ⟨h1, h2⟩ | h | h
  · simp [h1, h2]
  · simp [h]
  · have hn : ¬s.active.timing.refusalLimit.toNat ≤ nextRefusals s := Nat.not_le.2 h
    simp [hn]

section

variable (w8 : MirrorWord) (b : BusPins) (word : Nat) (reason : Reason) (l : Level) (s : State)

/-- A refused write that does not reach the limit is recorded and counted (R86, R98). -/
theorem requestRefused_below (h : belowRefusalLimit s) : requestRefused word reason l (writeBegun w8 b s) =
    refusalCounted w8 b word reason l s := by
  have hl : limitReached (submitRefused 0 word reason l (writeBegun w8 b s)) = false := limitReached_of_below h
  rw [requestRefused, countRefusal, hl]; rfl

/-- The state a counted refusal leaves: its REFUSED record, its count, and what the write has left of word 8 and of the bus. -/
theorem refusalCounted_eq : refusalCounted w8 b word reason l s = { s with
    page := { s.page with word8 := w8, refusals := min (s.page.refusals + 1) 1023 }
    queue := s.queue.atAccess.submit .refused (lowWord s.clock) 0 (refusedDetail reason l word)
    bus := b } := by
  have hq := refusalCounted_queue w8 b word reason l s
  rw [Queue.submits_cons, Queue.submits_nil, refusedRecord] at hq
  rw [← hq]; rfl

end

/-- A write above the REQUEST level is refused with LEVEL, nothing forwarded (R77, R96). -/
theorem requestWrite_aboveLevel {s : State} {word : Nat} {w : BusWrite} (he : w.enables.any = true)
    (hl : (requiredLevel s.tap.levelMap .request).toNat < w.level.toNat) :
    requestWrite word w (beginAccess s) = requestRefused word .level w.level (writeBegun s.page.word8 ⟨none, none⟩ s) := by
  have hp : levelPasses w.level (requiredLevel (beginAccess s).tap.levelMap .request) = false := by
    rw [levelPasses_eq]; exact decide_eq_false (Nat.not_le.2 hl)
  rw [requestWrite, if_neg (by simp [he]), if_pos hp]; rfl

/-- A mode word above 2 is refused with VALUE, and forwarded rewritten (R91). -/
theorem modeWordWrite_value {s : State} {w : BusWrite} (h : 2 < (mergeBytes s.page.word8.value w.data w.enables).toNat) :
    modeWordWrite w s = requestRefused 8 .value w.level (forwardWord 8 s.page.word8.value s) := by
  rw [modeWordWrite, if_pos h]

/-- A mode word that the mode controller refuses is forwarded rewritten (R49, R92). -/
theorem modeWordWrite_byMode {s : State} {w : BusWrite} {v : Nat} {reason : Reason}
    (hv : (mergeBytes s.page.word8.value w.data w.enables).toNat = v) (h2 : ¬2 < v) (hr : modeRefusal v s = some reason) :
    modeWordWrite w s = requestRefused 8 reason w.level (forwardWord 8 s.page.word8.value s) := by
  rw [modeWordWrite, hv, if_neg h2, hr]

/-- The mode controller's refusals of NORMAL (R49). -/
theorem modeRefusal_normal (s : State) :
    (s.mode.mode = .startFlash ∨ s.mode.mode = .flash → s.store.nv.valid = false → modeRefusal 1 s = some .unconfigured) ∧
    (s.mode.mode = .toFlash ∨ s.mode.mode = .dark → modeRefusal 1 s = some .mode) := by
  rcases hm : s.mode.mode <;> simp +contextual [modeRefusal, hm]

/-- The mode controller's refusals of DARK (R49). -/
theorem modeRefusal_dark (s : State) :
    (s.mode.mode = .startFlash ∨ s.mode.mode = .allStop ∨ s.mode.mode = .normal → modeRefusal 2 s = some .mode) ∧
    (s.mode.mode = .flash → s.mode.switch.level = false → modeRefusal 2 s = some .switchOpen) := by
  rcases hm : s.mode.mode <;> simp +contextual [modeRefusal, hm, State.switchClosed]

/-- Settles O19: each refusal is recorded and counted, by LEVEL and by the mode word's value and mode. -/
theorem refusedRequestWritesAreCounted : Obligations.RefusedRequestWritesAreCounted := by
  unfold Obligations.RefusedRequestWritesAreCounted
  refine ⟨fun s c word w hc hh he hl hb => ?_, fun s c w hc ht hb => ?_⟩
  · obtain ⟨h9, hx⟩ := exec_requestWrite hc
    rw [hx, busWrite_request hh h9, requestWrite_aboveLevel he hl, requestRefused_below _ _ _ _ _ _ hb, refusalCounted_eq]
  · intro old v refusedWith
    have refused : ∀ {reason}, modeWordWrite w (beginAccess s) = requestRefused 8 reason w.level (forwardWord 8 old (beginAccess s)) →
        refusedWith reason := fun {reason} hw => by
      have hbegun : forwardWord 8 old (beginAccess s) =
          writeBegun ⟨old, true, false⟩ ⟨none, some ⟨true, s.guardedAddress 0 8, ⟨true, true⟩, old⟩⟩ s := rfl
      rw [hbegun, requestRefused_below _ _ _ _ _ _ hb, refusalCounted_eq] at hw
      show exec c s = _
      rw [exec_modeWordWrite hc ht, hw]
    have byMode : ∀ {n reason}, v.toNat = n → ¬2 < n → modeRefusal n (beginAccess s) = some reason → refusedWith reason :=
      fun hn h2 hr => refused (modeWordWrite_byMode hn h2 hr)
    have one : v = 1 → v.toNat = 1 := fun h => h ▸ rfl
    have two : v = 2 → v.toNat = 2 := fun h => h ▸ rfl
    refine ⟨fun h0 h1 h2 => refused (modeWordWrite_value ?_), fun h hm hv => ?_, fun h hm => ?_, fun h hm => ?_, fun h hm hs => ?_⟩
    · show 2 < v.toNat
      bv_omega
    · exact byMode (one h) (by decide) ((modeRefusal_normal (beginAccess s)).1 hm hv)
    · exact byMode (one h) (by decide) ((modeRefusal_normal (beginAccess s)).2 hm)
    · exact byMode (two h) (by decide) ((modeRefusal_dark (beginAccess s)).1 hm)
    · exact byMode (two h) (by decide) ((modeRefusal_dark (beginAccess s)).2 hm hs)

end Sys2Proof.Machine

/-! PROOFS. What a part of the mode controller's step does without an expiry or an edge: it writes timers, filters and parts of the event that
no move of groups reads, and so changes places with every move (R47, R54, R59, R61). -/

namespace Sys2Proof.Machine

open Sys2Proof

/-! ### The values a quiet part writes -/

/-- What the mode controller's parts write besides groups and records: its own values, the liveness timer and the parts of the event. -/
structure Pace where
  mode : ModeControl
  liveness : Nat
  parts : EventParts

def State.pace (s : State) : Pace := ⟨s.mode, s.page.liveness, s.parts⟩

/-- The state with those values rewritten. -/
def State.paced (F : Pace → Pace) (s : State) : State :=
  { s with mode := (F s.pace).mode, page := { s.page with liveness := (F s.pace).liveness }, parts := (F s.pace).parts }

/-- The mode timer of the present mode advanced, where it advances (R47). -/
def ModeControl.advanced (advances : Bool) (m : ModeControl) : ModeControl :=
  { m with
    startFlashTimer := if advances && decide (m.mode = .startFlash) then m.startFlashTimer + 1 else m.startFlashTimer
    allStopTimer := if advances && decide (m.mode = .allStop) then m.allStopTimer + 1 else m.allStopTimer
    flashEntryTimer := if advances && decide (m.mode = .toFlash) then m.flashEntryTimer + 1 else m.flashEntryTimer }

/-- The mode timer's part without an expiry (R47). -/
def timerTick (p : Pace) : Pace :=
  { p with
    mode := p.mode.advanced (p.parts.modeTimer && p.mode.running && !p.parts.heldModeTimer)
    parts := { p.parts with modeTimer := false, heldModeTimer := p.parts.heldModeTimer && !p.parts.modeTimer } }

/-- The liveness timer advances in its part (R54). -/
def Pace.lives (p : Pace) : Bool :=
  p.parts.liveness && decide (p.mode.mode = .allStop ∨ p.mode.mode = .normal) && !p.parts.heldLiveness

/-- The liveness timer's part without an expiry (R54). -/
def livenessTick (p : Pace) : Pace :=
  { p with
    liveness := if p.lives then p.liveness + 1 else p.liveness
    parts := { p.parts with liveness := false, heldLiveness := p.parts.heldLiveness && !p.parts.liveness } }

/-- A two-sample filter after a sample that is no edge, where its part is due (R59, R61). -/
def Filter.seen (due : Bool) (f : Filter) (x : Bool) : Filter := if due then ⟨f.level, x != f.level⟩ else f

/-- A hold line's part without an edge (R61). -/
def holdTick (line : Fin 2) (x : Bool) (p : Pace) : Pace :=
  if line = 0 then
    { p with mode := { p.mode with h0 := p.mode.h0.seen p.parts.hold0 x }, parts := { p.parts with hold0 := false } }
  else
    { p with mode := { p.mode with h1 := p.mode.h1.seen p.parts.hold1 x }, parts := { p.parts with hold1 := false } }

/-- The switch's part without an edge (R59). -/
def switchTick (x : Bool) (p : Pace) : Pace :=
  { p with mode := { p.mode with switch := p.mode.switch.seen p.parts.switch x }, parts := { p.parts with switch := false } }

/-! ### The parts without an expiry or an edge -/

/-- No mode timer expires in the mode timer's part (R48, R52, R57). -/
def TimerQuiet (s : State) : Prop := modeTimerRuns s = true →
  (s.mode.mode = .startFlash → s.mode.startFlashTimer + 1 < startFlashLimit s) ∧
  (s.mode.mode = .allStop → s.mode.allStopTimer + 1 < s.active.timing.allStop.toNat) ∧
  (s.mode.mode = .toFlash → s.mode.flashEntryTimer + 1 < s.active.timing.flashEntry.toNat)

/-- The liveness timer does not expire in its part (R54). -/
def LivenessQuiet (s : State) : Prop := livenessRuns s = true → s.page.liveness + 1 < s.active.timing.liveness.toNat

/-- A sample is no edge of a filter (R59, R61). -/
def FilterQuiet (due : Bool) (f : Filter) (x : Bool) : Prop := due = true → f.level = x ∨ f.differed = false

theorem Filter.sample_quiet {f : Filter} {x : Bool} (h : FilterQuiet true f x) : f.sample x = f.seen true x := by
  unfold Filter.sample Filter.seen
  rcases h rfl with h | h
  · simp [h]
  · by_cases hx : x = f.level <;> simp [hx, h]

@[simp] theorem ModeControl.advanced_false (m : ModeControl) : m.advanced false = m := by simp [ModeControl.advanced]

theorem ModeControl.advanced_of_ne (b : Bool) {m : ModeControl} (h1 : m.mode ≠ .startFlash) (h2 : m.mode ≠ .allStop)
    (h3 : m.mode ≠ .toFlash) : m.advanced b = m := by simp [ModeControl.advanced, h1, h2, h3]

/-- Values that are rewritten as they stand leave the state. -/
theorem State.paced_of_fixed {F : Pace → Pace} {s : State} (h : F s.pace = s.pace) : s.paced F = s := by
  rw [State.paced, h]; rfl

/-- An advance without an expiry (R47, R48, R52, R57). -/
theorem advanceModeTimer_quiet {s : State} (h1 : s.mode.mode = .startFlash → s.mode.startFlashTimer + 1 < startFlashLimit s)
    (h2 : s.mode.mode = .allStop → s.mode.allStopTimer + 1 < s.active.timing.allStop.toNat)
    (h3 : s.mode.mode = .toFlash → s.mode.flashEntryTimer + 1 < s.active.timing.flashEntry.toNat) :
    advanceModeTimer s = { s with mode := s.mode.advanced true } := by
  unfold advanceModeTimer
  split
  · rename_i hm
    rw [if_neg (Nat.not_le.2 (h1 hm))]; simp [ModeControl.advanced, hm]
  · rename_i hm
    rw [if_neg (Nat.not_le.2 (h2 hm))]; simp [ModeControl.advanced, hm]
  · rename_i hm
    rw [if_neg (Nat.not_le.2 (h3 hm))]; simp [ModeControl.advanced, hm]
  · rename_i n1 n2 n3
    rw [ModeControl.advanced_of_ne true n1 n2 n3]

theorem timerTick_fixed {p : Pace} (h : p.parts.modeTimer = false) : timerTick p = p := by
  rcases p with ⟨m, l, q⟩
  cases q
  simp_all [timerTick]

theorem modeTimerPart_quiet {s : State} (h : TimerQuiet s) : modeTimerPart s = s.paced timerTick := by
  unfold modeTimerPart
  rcases hp : s.parts.modeTimer with _ | _
  · exact (State.paced_of_fixed (timerTick_fixed hp)).symm
  · rw [if_pos rfl]
    dsimp only
    rcases hr : modeTimerRuns s with _ | _
    · have hn : (s.mode.running && !s.parts.heldModeTimer) = false := by simpa [modeTimerRuns, hp] using hr
      simp [State.paced, timerTick, State.pace, hp, hn]
    · obtain ⟨h1, h2, h3⟩ := h hr
      have hn : (s.mode.running && !s.parts.heldModeTimer) = true := by simpa [modeTimerRuns, hp] using hr
      rw [if_pos rfl]
      refine (advanceModeTimer_quiet (s := { s with parts := { s.parts with modeTimer := false, heldModeTimer := false } })
        h1 h2 h3).trans ?_
      simp [State.paced, timerTick, State.pace, hp, hn]

theorem livenessRuns_eq (s : State) : livenessRuns s = s.pace.lives := by
  rw [livenessRuns, supervised_eq]; rfl

theorem livenessTick_fixed {p : Pace} (h : p.parts.liveness = false) : livenessTick p = p := by
  rcases p with ⟨m, l, q⟩
  cases q
  simp_all [livenessTick, Pace.lives]

theorem livenessPart_quiet {s : State} (h : LivenessQuiet s) : livenessPart s = s.paced livenessTick := by
  unfold livenessPart
  have hl := livenessRuns_eq s
  rcases hp : s.parts.liveness with _ | _
  · exact (State.paced_of_fixed (livenessTick_fixed hp)).symm
  · rw [if_pos rfl]
    dsimp only
    rcases hr : livenessRuns s with _ | _
    · simp only [State.paced, livenessTick, ← hl, hr]
      simp [State.pace, hp]
    · have hn : ¬s.active.timing.liveness.toNat ≤ s.page.liveness + 1 := Nat.not_le.2 (h hr)
      rw [if_pos rfl]
      refine (if_neg hn).trans ?_
      simp only [State.paced, livenessTick, ← hl, hr]
      simp [State.pace, hp]

theorem holdTick_fixed {s : State} {line : Fin 2} {x : Bool} (h : holdDue s line = false) : s.paced (holdTick line x) = s := by
  refine State.paced_of_fixed ?_
  rcases s with ⟨_, _, _, _, _, _, _, _, _, _, _, _, _, _, _, q, _⟩
  unfold holdDue at h
  unfold holdTick
  split <;> rename_i hl <;> simp only [hl, if_true, if_false] at h <;> cases q <;> simp_all [State.pace, Filter.seen]

theorem holdPart_quiet {s : State} {line : Fin 2} {x : Bool} (h : FilterQuiet (holdDue s line) (holdFilter s line) x) :
    holdPart line x s = s.paced (holdTick line x) := by
  rcases hp : holdDue s line with _ | _
  · rw [holdTick_fixed hp, holdPart, hp]; rfl
  · rw [hp] at h
    have hf : holdFilter (holdTaken line s) line = holdFilter s line := by unfold holdFilter holdTaken; split <;> rfl
    have hl : ((holdFilter s line).seen true x).level = (holdFilter s line).level := rfl
    rw [holdPart, if_pos hp, sampleHold, hf, Filter.sample_quiet h, if_pos hl]
    unfold setHoldFilter holdTaken State.paced holdTick holdFilter holdDue at *
    split <;> rename_i hl <;> simp only [hl, if_true, if_false] at hp <;> simp [State.pace, hp]

theorem switchPart_quiet {s : State} {x : Bool} (h : FilterQuiet s.parts.switch s.mode.switch x) :
    switchPart x s = s.paced (switchTick x) := by
  unfold switchPart
  rcases hp : s.parts.switch with _ | _
  · refine (State.paced_of_fixed ?_).symm
    rcases s with ⟨_, _, _, _, _, _, _, _, _, _, _, _, _, _, _, q, _⟩
    cases q
    simp_all [switchTick, State.pace, Filter.seen]
  · rw [hp] at h
    have hl : ¬(s.mode.switch.level = true ∧ (s.mode.switch.seen true x).level = false ∧ s.mode.mode = .dark) := fun ⟨h1, h2, _⟩ => by
      rw [show (s.mode.switch.seen true x).level = s.mode.switch.level from rfl, h1] at h2; cases h2
    rw [if_pos rfl, sampleSwitch]
    dsimp only
    rw [Filter.sample_quiet h, if_neg hl]
    simp [State.paced, switchTick, State.pace, hp]

end Sys2Proof.Machine

/-! PROOFS. Moves of groups and entries to a flash mode do not read what a quiet part writes (R7 to R9, R46, R52, R56, R57, R62). -/

namespace Sys2Proof.Machine

open Sys2Proof

/-! ### What moves of groups and entries write of it -/

/-- An entry of a group into a state (R35, R46). -/
def Pace.note (g : GroupNo) (b : Bool) (p : Pace) : Pace := { p with parts := p.parts.noteEntry g b }

/-- A request age held back (R12, R29). -/
def Pace.noteAge (g : GroupNo) (p : Pace) : Pace :=
  if p.parts.sequencer then { p with parts := { p.parts with heldAges := p.parts.heldAges ||| groupBit g } } else p

/-- The start of the stopped mode's timer (R47, R52, R57). -/
def Pace.started (p : Pace) : Pace :=
  { p with
    mode := { p.mode with running := true, allStopTimer := 0, flashEntryTimer := 0 }
    parts := { p.parts with heldModeTimer := p.parts.modeTimer } }

/-- The change to a mode in which the liveness timer does not run (R45, R47, R54). -/
def Pace.entered (m : Mode) (c : Cause) (p : Pace) : Pace :=
  { mode := { p.mode with mode := m, cause := c, startFlashTimer := 0, allStopTimer := 0, flashEntryTimer := 0, running := false }
    liveness := 0
    parts := { p.parts with heldModeTimer := false } }

/-- The rewriting leaves what moves of groups and changes of mode read, and changes places with what they write. -/
structure Unread (F : Pace → Pace) : Prop where
  mode : ∀ p, (F p).mode.mode = p.mode.mode
  running : ∀ p, (F p).mode.running = p.mode.running
  h0 : ∀ p, (F p).mode.h0.level = p.mode.h0.level
  h1 : ∀ p, (F p).mode.h1.level = p.mode.h1.level
  note : ∀ p g b, F (p.note g b) = (F p).note g b
  noteAge : ∀ p g, F (p.noteAge g) = (F p).noteAge g
  started : ∀ p, p.mode.running = false → F p.started = (F p).started
  entered : ∀ p m c, m.supervised = false → F (p.entered m c) = (F p).entered m c

theorem timerTick_unread : Unread timerTick where
  mode := fun _ => rfl
  running := fun _ => rfl
  h0 := fun _ => rfl
  h1 := fun _ => rfl
  note := fun ⟨_, _, q⟩ _ _ => by obtain ⟨_ | _⟩ := q <;> rfl
  noteAge := fun ⟨_, _, q⟩ _ => by obtain ⟨_ | _⟩ := q <;> rfl
  started := fun p h => by simp [timerTick, ModeControl.advanced, Pace.started, h]
  entered := fun p m c _ => by simp [timerTick, ModeControl.advanced, Pace.entered]

theorem livenessTick_unread : Unread livenessTick where
  mode := fun _ => rfl
  running := fun _ => rfl
  h0 := fun _ => rfl
  h1 := fun _ => rfl
  note := fun ⟨_, _, q⟩ _ _ => by obtain ⟨_ | _⟩ := q <;> rfl
  noteAge := fun ⟨_, _, q⟩ _ => by obtain ⟨_ | _⟩ := q <;> rfl
  started := fun _ _ => rfl
  entered := fun p m c hm => by
    rw [supervised_eq, decide_eq_false_iff_not] at hm
    simp [livenessTick, Pace.lives, Pace.entered, hm]

theorem holdTick_unread (line : Fin 2) (x : Bool) : Unread (holdTick line x) := by
  have level : ∀ (due : Bool) (f : Filter), (f.seen due x).level = f.level := fun due f => by cases due <;> rfl
  rcases (show line = 0 ∨ line = 1 by omega) with rfl | rfl
  · exact {
      mode := fun _ => rfl
      running := fun _ => rfl
      h0 := fun p => level p.parts.hold0 p.mode.h0
      h1 := fun _ => rfl
      note := fun ⟨_, _, q⟩ _ _ => by obtain ⟨_ | _⟩ := q <;> rfl
      noteAge := fun ⟨_, _, q⟩ _ => by obtain ⟨_ | _⟩ := q <;> rfl
      started := fun _ _ => rfl
      entered := fun _ _ _ _ => rfl }
  · exact {
      mode := fun _ => rfl
      running := fun _ => rfl
      h0 := fun _ => rfl
      h1 := fun p => level p.parts.hold1 p.mode.h1
      note := fun ⟨_, _, q⟩ _ _ => by obtain ⟨_ | _⟩ := q <;> rfl
      noteAge := fun ⟨_, _, q⟩ _ => by obtain ⟨_ | _⟩ := q <;> rfl
      started := fun _ _ => rfl
      entered := fun _ _ _ _ => rfl }

/-! ### The operations -/

section

variable {F : Pace → Pace}

/-- The operation does the same before and after the rewriting. -/
def Blind (F : Pace → Pace) (f : State → State) : Prop := ∀ s, f (s.paced F) = (f s).paced F

theorem Blind.comp {f k : State → State} (h : Blind F f) (l : Blind F k) : Blind F fun s => k (f s) := fun s => by
  show k (f (s.paced F)) = _
  rw [h s, l (f s)]

/-- An operation that writes of those values what changes places with the rewriting, and nothing else by them. -/
theorem paced_of_write {f : State → State} {s : State} {e : Pace → Pace} (hp : (f s).pace = e s.pace)
    (he : F (e s.pace) = e (F s.pace)) (hr : f (s.paced F) = (f s).paced fun _ => e (F s.pace)) : f (s.paced F) = (f s).paced F := by
  rw [hr, State.paced, State.paced, hp, he]

@[simp] theorem State.paced_group (s : State) (g : GroupNo) : (s.paced F).group g = s.group g := rfl
@[simp] theorem State.paced_configured (s : State) (g : GroupNo) : (s.paced F).configured g = s.configured g := rfl
@[simp] theorem State.paced_minimumGo (s : State) (g : GroupNo) : (s.paced F).minimumGo g = s.minimumGo g := rfl
@[simp] theorem State.paced_prepareTime (s : State) (g : GroupNo) : (s.paced F).prepareTime g = s.prepareTime g := rfl
@[simp] theorem State.paced_goMask (s : State) : (s.paced F).goMask = s.goMask := rfl
@[simp] theorem State.paced_allStopped (s : State) : (s.paced F).allStopped = s.allStopped := rfl

theorem submit_blind (k : EventKind) (x : Byte) (d : Word) : Blind F (submit k x d) := fun _ => rfl

/-- Over all configured groups in turn. -/
theorem forGroups_blind {f : GroupNo → State → State} (h : ∀ g, Blind F (f g)) : Blind F (forGroups f) := fun s => by
  refine List.foldl_hom (State.paced F) fun t g => ?_
  rw [State.paced_configured]
  split
  · exact h g t
  · rfl

/-- The start of the stopped mode's timer, where it falls. -/
theorem startStoppedTimer_start {s : State} (h : s.stopping ∧ s.mode.running = false ∧ s.allStopped = true) :
    startStoppedTimer s = s.paced Pace.started := if_pos h

/-- A request age set to 0, by the part of the state it reads. -/
theorem resetAge_eq (g : GroupNo) (s : State) :
    resetAge g s = (s.setGroup g { s.group g with age := 0 }).paced (Pace.noteAge g) := by
  unfold resetAge State.paced Pace.noteAge
  dsimp only
  rw [show (State.pace (s.setGroup g { s.group g with age := 0 })).parts.sequencer = s.parts.sequencer from rfl]
  rw [show (s.setGroup g { s.group g with age := 0 }).parts.sequencer = s.parts.sequencer from rfl]
  split <;> rfl

variable (hF : Unread F)
include hF

theorem Unread.holdsAct (s : State) : (s.paced F).holdsAct = s.holdsAct := by
  show (decide ((F s.pace).mode.mode = .normal) || decide ((F s.pace).mode.mode = .toFlash)) = _
  rw [hF.mode]; rfl

theorem Unread.heldByLine (s : State) (g : GroupNo) : (s.paced F).heldByLine g = s.heldByLine g := by
  show ((F s.pace).mode.h0.level && _ || (F s.pace).mode.h1.level && _) = _
  rw [hF.h0, hF.h1]; rfl

theorem Unread.stopping (s : State) : (s.paced F).stopping ↔ s.stopping := by
  show ((F s.pace).mode.mode = .allStop ∨ (F s.pace).mode.mode = .toFlash) ↔ _
  rw [hF.mode]; rfl

theorem Unread.runs (s : State) : (s.paced F).mode.running = s.mode.running := hF.running s.pace

theorem enterGroup_blind (g : GroupNo) (st : GroupState) (e : Option Nat) (b : Bool) : Blind F (enterGroup g st e b) := fun s =>
  paced_of_write (e := Pace.note g e.isSome) rfl (hF.note s.pace g _) rfl

theorem startStoppedTimer_blind : Blind F startStoppedTimer := fun s => by
  by_cases h : s.stopping ∧ s.mode.running = false ∧ s.allStopped = true
  · have k : (s.paced F).stopping ∧ (s.paced F).mode.running = false ∧ (s.paced F).allStopped = true := by
      rwa [hF.stopping, hF.runs, State.paced_allStopped]
    refine paced_of_write (e := Pace.started) ?_ (hF.started s.pace h.2.1) ?_
    · rw [startStoppedTimer_start h]; rfl
    · rw [startStoppedTimer_start h, startStoppedTimer_start k]; rfl
  · have k : ¬((s.paced F).stopping ∧ (s.paced F).mode.running = false ∧ (s.paced F).allStopped = true) := by
      rwa [hF.stopping, hF.runs, State.paced_allStopped]
    have hs : startStoppedTimer s = s := if_neg h
    rw [hs]; exact if_neg k

theorem enterStop_blind (g : GroupNo) (e : Option Nat) : Blind F (enterStop g e) :=
  (enterGroup_blind hF g _ _ _).comp (startStoppedTimer_blind hF)

theorem enterClearing_blind (g : GroupNo) : Blind F (enterClearing g) := enterGroup_blind hF g _ _ _

theorem holdRule_blind (g : GroupNo) : Blind F (holdRule g) := fun s => by
  unfold holdRule
  rw [hF.holdsAct, hF.heldByLine, State.paced_configured, State.paced_group]
  split
  · rcases (s.group g).state
    case go => exact enterClearing_blind hF g s
    case prepare => exact enterStop_blind hF g none s
    all_goals rfl
  · rfl

theorem holdEdge_blind (line : Fin 2) (level : Bool) : Blind F (holdEdge line level) := fun s => by
  rw [holdEdge_eq, holdEdge_eq]
  split
  · exact forGroups_blind (holdRule_blind hF) (holdStart line level s)
  · rfl

theorem resetAge_blind (g : GroupNo) : Blind F (resetAge g) := fun s => by
  rw [resetAge_eq, resetAge_eq]
  show _ = State.paced F _
  exact paced_of_write (f := State.paced (Pace.noteAge g)) (s := s.setGroup g { s.group g with age := 0 }) (e := Pace.noteAge g) rfl
    (hF.noteAge s.pace g) rfl

theorem requestCleared_blind (g : GroupNo) : Blind F (requestCleared g) := fun s => by
  unfold requestCleared
  rw [State.paced_group, State.paced_minimumGo, State.paced_prepareTime]
  rcases (s.group g).state
  case stop => exact resetAge_blind hF g s
  case go =>
    dsimp only
    split
    · exact enterClearing_blind hF g s
    · rfl
  all_goals rfl

theorem toFlashTurn_blind (g : GroupNo) : Blind F (toFlashTurn g) := by
  refine Blind.comp (f := endRequest g) (fun s => ?_) (holdRule_blind hF g)
  unfold endRequest
  rw [State.paced_goMask]
  split
  · exact requestCleared_blind hF g s
  · rfl

theorem orderGroup_blind (st : GroupState) (g : GroupNo) : Blind F (orderGroup st g) := fun s => by
  unfold orderGroup
  rw [State.paced_group]
  split
  · rfl
  · exact enterGroup_blind hF g st none false s

/-- The entry to a mode in which the liveness timer does not run. -/
theorem setMode_blind {m : Mode} (c : Cause) (hm : m.supervised = false) : Blind F (setMode m c) := fun s => by
  refine paced_of_write (e := Pace.entered m c) ?_ (hF.entered s.pace m c hm) ?_ <;> unfold setMode <;> rw [hm] <;> rfl

theorem changeMode_blind {m : Mode} (c : Cause) (hm : m.supervised = false) {orders : State → State} (h : Blind F orders) :
    Blind F (changeMode m c orders) := fun s => by
  show orders (submit .mode Config.absent (modeDetail m (F s.pace).mode.mode c) (setMode m c (s.paced F))) = _
  rw [hF.mode, setMode_blind hF c hm s, submit_blind]
  exact h _

theorem toFlashEntry_blind (c : Cause) : Blind F (toFlashEntry c) := by
  have orders : Blind F fun s => forGroups toFlashTurn (startStoppedTimer s) :=
    (startStoppedTimer_blind hF).comp (forGroups_blind (toFlashTurn_blind hF))
  have toFlash : Mode.toFlash.supervised = false := by simp [Mode.supervised]
  intro s
  rw [toFlashEntry, toFlashEntry]
  exact changeMode_blind hF c toFlash orders s

theorem flashEntry_blind (c : Cause) : Blind F (flashEntry c) := by
  have flash : Mode.flash.supervised = false := by simp [Mode.supervised]
  exact changeMode_blind hF c flash (forGroups_blind (orderGroup_blind hF .flashing))

end

end Sys2Proof.Machine

/-! PROOFS. The mode controller's step, one part after another: an expiry or an edge taken first is the step's own, where the parts before it are
quiet (R47, R52, R54, R57, R59, R61). -/

namespace Sys2Proof.Machine

open Sys2Proof

variable {s t : State} {F : Pace → Pace} {m : Mode} {c : Cause} {line : Fin 2} {x : Bool}

/-! ### The expiry of the liveness timer -/

/-- The liveness timer expires in its part (R54). -/
def LivenessExpires (s : State) : Prop := livenessRuns s = true ∧ s.active.timing.liveness.toNat ≤ s.page.liveness + 1

/-- The state in which the liveness timer's expiry enters TO_FLASH: its part taken, the loss counted (R54, R175). -/
def lossCounted (s : State) : State :=
  { s with
    store := { s.store with nv := { s.store.nv with livenessLosses := satAdd s.store.nv.livenessLosses Config.counterLimit } }
    parts := { s.parts with liveness := false, heldLiveness := false } }

theorem livenessPart_expires (h : LivenessExpires s) : livenessPart s = toFlashEntry .liveness (lossCounted s) := by
  obtain ⟨hr, hl⟩ := h
  have hp : s.parts.liveness = true := by
    simp only [livenessRuns, Bool.and_eq_true] at hr; exact hr.1.1
  rw [livenessPart, if_pos hp, hr, if_pos rfl]
  exact if_pos hl

theorem livenessPart_change (h : LivenessExpires s) : ModeChange (lossCounted s) (livenessPart s) .toFlash .liveness := by
  rw [livenessPart_expires h]; exact toFlashEntry_change _ (.refl _)

theorem livenessExpires_timerTick (h : LivenessExpires s) : LivenessExpires (s.paced timerTick) := h

/-! ### The edges -/

/-- The sample of a hold line is an edge (R61). -/
def HoldEdge (line : Fin 2) (x : Bool) (s : State) : Prop :=
  holdDue s line = true ∧ (holdFilter s line).differed = true ∧ (holdFilter s line).level ≠ x

/-- The sample of the switch is an edge (R59). -/
def SwitchEdge (x : Bool) (s : State) : Prop := s.parts.switch = true ∧ s.mode.switch.differed = true ∧ s.mode.switch.level ≠ x

/-- A filter that a sample turns. -/
theorem Filter.eq_of_edge {f : Filter} (hd : f.differed = true) (hl : f.level ≠ x) : f = ⟨!x, true⟩ := by
  rcases f with ⟨l, d⟩
  have hl : l = !x := by cases l <;> cases x <;> simp_all
  rw [hl, show d = true from hd]

theorem holdPart_edge (h : HoldEdge line x s) : holdPart line x s = holdEdge line x (holdTurned line x s) := by
  have hx : exec (.hold line x) s = .next (holdPart line x s) := congrArg Host.Outcome.next (if_pos h)
  exact Host.Outcome.next.inj (hx.symm.trans (exec_hold_edge h.1 (Filter.eq_of_edge h.2.1 h.2.2)))

/-- The state in which the switch's edge takes effect (R59). -/
def switchTurned (x : Bool) (s : State) : State :=
  { s with mode := { s.mode with switch := ⟨x, false⟩ }, parts := { s.parts with switch := false } }

theorem switchPart_edge (h : SwitchEdge x s) : switchPart x s =
    if x = false ∧ s.mode.mode = .dark then flashEntry .switch (switchTurned x s) else switchTurned x s := by
  have hx : exec (.commissioningSwitchChange x) s = .next (switchPart x s) := congrArg Host.Outcome.next (if_pos h)
  exact Host.Outcome.next.inj (hx.symm.trans (exec_switch_edge h.1 (Filter.eq_of_edge h.2.1 h.2.2)))

theorem holdPart_move (h : HoldEdge line x s) : GroupMove (holdTurned line x s) (holdPart line x s) := by
  rw [holdPart_edge h]; exact holdEdge_groupMove line x _

/-! ### A part once taken is not due -/

theorem ModeChange.modeTimerDue (h : ModeChange s t m c) : t.parts.modeTimer = s.parts.modeTimer := by rw [h.parts]

theorem advanceModeTimer_due (s : State) : (advanceModeTimer s).parts.modeTimer = s.parts.modeTimer := by
  unfold advanceModeTimer
  split
  · split
    · by_cases h : s.mode.normalPending = true ∧ s.store.nv.valid = true ∧ s.store.busy = false
      · exact (startFlashEnd_allStop h).1.modeTimerDue
      · exact (startFlashEnd_flash h).1.modeTimerDue
    · rfl
  · split
    · exact (normalEntry_change (.refl s)).modeTimerDue
    · rfl
  · split
    · exact (flashEntry_change _ (.refl s)).modeTimerDue
    · rfl
  · rfl

theorem modeTimerPart_idem (s : State) : modeTimerPart (modeTimerPart s) = modeTimerPart s := by
  have taken : (modeTimerPart s).parts.modeTimer = false := by
    unfold modeTimerPart
    split
    · dsimp only
      split
      · exact advanceModeTimer_due _
      · rfl
    · rename_i h; simpa using h
  generalize modeTimerPart s = t at taken
  rw [modeTimerPart, taken]; rfl

theorem livenessPart_idem (h : LivenessExpires s) : livenessPart (livenessPart s) = livenessPart s := by
  have taken : (livenessPart s).parts.liveness = false := by rw [(livenessPart_change h).parts]; rfl
  generalize livenessPart s = t at taken
  rw [livenessPart, taken]; rfl

theorem holdPart_idem (h : HoldEdge line x s) : holdPart line x (holdPart line x s) = holdPart line x s := by
  have taken : holdDue (holdPart line x s) line = false := by
    unfold holdDue
    rw [(holdPart_move h).parts]
    rcases (show line = 0 ∨ line = 1 by omega) with rfl | rfl <;> rfl
  generalize holdPart line x s = t at taken
  rw [holdPart, taken]; rfl

theorem switchPart_idem (h : SwitchEdge x s) : switchPart x (switchPart x s) = switchPart x s := by
  have taken : (switchPart x s).parts.switch = false := by
    rw [switchPart_edge h]
    split
    · rw [(flashEntry_change .switch (.refl (switchTurned x s))).parts]; rfl
    · rfl
  generalize switchPart x s = t at taken
  rw [switchPart, taken]; rfl

/-! ### A part is as quiet after an expiry or an edge as before -/

/-- An entry to a mode leaves no timer that would run on within the event (R47). -/
theorem ModeChange.timerQuiet (h : ModeChange s t m c) : TimerQuiet t := fun hr => by
  simp only [modeTimerRuns, h.heldModeTimer, h.modeTimerDue] at hr
  revert hr
  cases t.mode.running <;> cases s.parts.modeTimer <;> simp

/-- Moves of groups start no timer that would run on within the event (R47, R52, R57). -/
theorem GroupMove.timerQuiet (h : GroupMove s t) (hq : TimerQuiet s) : TimerQuiet t := by
  rcases hl : lastEntersStop s t with _ | _
  · obtain ⟨hm, hh⟩ := h.timerStands hl
    unfold TimerQuiet modeTimerRuns startFlashLimit at hq ⊢
    rw [hm, hh, h.modeTimerPart, h.active, h.store]; exact hq
  · obtain ⟨hr, -, -, hh⟩ := h.timerStarts hl
    intro k
    simp only [modeTimerRuns, hr, hh, h.modeTimerPart] at k
    revert k
    cases s.parts.modeTimer <;> simp

theorem GroupMove.livenessQuiet (h : GroupMove s t) (hq : LivenessQuiet s) : LivenessQuiet t := by
  have hp : t.parts.liveness = s.parts.liveness := by rw [h.parts]
  have hh : t.parts.heldLiveness = s.parts.heldLiveness := by rw [h.parts]
  unfold LivenessQuiet livenessRuns at hq ⊢
  rw [hp, hh, h.modeMode, h.active, h.page]; exact hq

theorem holdPart_timerQuiet (h : HoldEdge line x s) (hq : TimerQuiet s) : TimerQuiet (holdPart line x s) := by
  refine (holdPart_move h).timerQuiet ?_
  rcases (show line = 0 ∨ line = 1 by omega) with rfl | rfl <;> exact hq

theorem holdPart_livenessQuiet (h : HoldEdge line x s) (hq : LivenessQuiet s) : LivenessQuiet (holdPart line x s) := by
  refine (holdPart_move h).livenessQuiet ?_
  rcases (show line = 0 ∨ line = 1 by omega) with rfl | rfl <;> exact hq

/-- H0's part and filter are as they were after an edge of H1. -/
theorem holdPart_other (h : HoldEdge 1 x s) : holdDue (holdPart 1 x s) 0 = holdDue s 0 ∧ holdFilter (holdPart 1 x s) 0 = holdFilter s 0 := by
  have k := holdPart_move h
  refine ⟨?_, k.h0⟩
  show (holdPart 1 x s).parts.hold0 = _
  rw [k.parts]; rfl

/-- What an edge of the switch leaves to the other parts: the timers quiet, the hold lines' parts and filters as they were. -/
theorem switchPart_others (h : SwitchEdge x s) : (TimerQuiet s → TimerQuiet (switchPart x s)) ∧
    (LivenessQuiet s → LivenessQuiet (switchPart x s)) ∧
    ∀ line, holdDue (switchPart x s) line = holdDue s line ∧ holdFilter (switchPart x s) line = holdFilter s line := by
  rw [switchPart_edge h]
  split
  · have k := flashEntry_change .switch (.refl (switchTurned x s))
    obtain ⟨h0, h1, -⟩ := k.filters
    refine ⟨fun _ => k.timerQuiet, fun _ hr => ?_, fun line => ⟨?_, ?_⟩⟩
    · rw [livenessRuns, k.mode] at hr
      simp [Mode.supervised] at hr
    · unfold holdDue; rw [k.parts]; rfl
    · unfold holdFilter; rw [h0, h1]; rfl
  · exact ⟨id, id, fun _ => ⟨rfl, rfl⟩⟩

/-! ### An expiry or an edge changes places with a quiet part -/

theorem lossCounted_timerTick (s : State) : lossCounted (s.paced timerTick) = (lossCounted s).paced timerTick := rfl

theorem livenessPart_timer (h : LivenessExpires s) (hq : TimerQuiet s) :
    modeTimerPart (livenessPart s) = livenessPart (modeTimerPart s) := by
  rw [modeTimerPart_quiet (livenessPart_change h).timerQuiet, modeTimerPart_quiet hq, livenessPart_expires h,
    livenessPart_expires (livenessExpires_timerTick h), lossCounted_timerTick]
  exact (toFlashEntry_blind timerTick_unread .liveness _).symm

/-- An edge of a hold line does the same before and after a rewriting that leaves its part and its filter. -/
theorem holdPart_paced (hF : Unread F) (h : HoldEdge line x s) (h' : HoldEdge line x (s.paced F))
    (ht : holdTurned line x (s.paced F) = (holdTurned line x s).paced F) : holdPart line x (s.paced F) = (holdPart line x s).paced F := by
  rw [holdPart_edge h, holdPart_edge h', ht]
  exact holdEdge_blind hF line x _

/-- The tick of one of the two timers leaves a hold line's edge. -/
theorem holdTurned_ticks (line : Fin 2) (x : Bool) (s : State) :
    holdTurned line x (s.paced timerTick) = (holdTurned line x s).paced timerTick ∧
    holdTurned line x (s.paced livenessTick) = (holdTurned line x s).paced livenessTick := by
  rcases (show line = 0 ∨ line = 1 by omega) with rfl | rfl <;> exact ⟨rfl, rfl⟩

theorem holdPart_timer (h : HoldEdge line x s) (hq : TimerQuiet s) :
    modeTimerPart (holdPart line x s) = holdPart line x (modeTimerPart s) := by
  rw [modeTimerPart_quiet (holdPart_timerQuiet h hq), modeTimerPart_quiet hq]
  exact (holdPart_paced timerTick_unread h h (holdTurned_ticks line x s).1).symm

theorem holdPart_liveness (h : HoldEdge line x s) (hq : LivenessQuiet s) :
    livenessPart (holdPart line x s) = holdPart line x (livenessPart s) := by
  rw [livenessPart_quiet (holdPart_livenessQuiet h hq), livenessPart_quiet hq]
  exact (holdPart_paced livenessTick_unread h h (holdTurned_ticks line x s).2).symm

theorem holdPart_one_zero {y : Bool} (h : HoldEdge 1 x s) (hq : FilterQuiet (holdDue s 0) (holdFilter s 0) y) :
    holdPart 0 y (holdPart 1 x s) = holdPart 1 x (holdPart 0 y s) := by
  obtain ⟨hd, hf⟩ := holdPart_other h
  rw [holdPart_quiet (s := holdPart 1 x s) (by rw [hd, hf]; exact hq), holdPart_quiet hq]
  exact (holdPart_paced (holdTick_unread 0 y) h h rfl).symm

/-- An edge of the switch does the same before and after a rewriting that leaves its part and its filter. -/
theorem switchPart_paced (hF : Unread F) (h : SwitchEdge x s) (h' : SwitchEdge x (s.paced F))
    (ht : switchTurned x (s.paced F) = (switchTurned x s).paced F) : switchPart x (s.paced F) = (switchPart x s).paced F := by
  have hm : (s.paced F).mode.mode = s.mode.mode := hF.mode s.pace
  rw [switchPart_edge h, switchPart_edge h', ht, hm]
  split
  · exact flashEntry_blind hF .switch _
  · rfl

theorem switchPart_timer (h : SwitchEdge x s) (hq : TimerQuiet s) :
    modeTimerPart (switchPart x s) = switchPart x (modeTimerPart s) := by
  rw [modeTimerPart_quiet ((switchPart_others h).1 hq), modeTimerPart_quiet hq]
  exact (switchPart_paced timerTick_unread h h rfl).symm

theorem switchPart_liveness (h : SwitchEdge x s) (hq : LivenessQuiet s) :
    livenessPart (switchPart x s) = switchPart x (livenessPart s) := by
  rw [livenessPart_quiet ((switchPart_others h).2.1 hq), livenessPart_quiet hq]
  exact (switchPart_paced livenessTick_unread h h rfl).symm

theorem switchPart_hold {y : Bool} (h : SwitchEdge x s) (hq : FilterQuiet (holdDue s line) (holdFilter s line) y) :
    holdPart line y (switchPart x s) = switchPart x (holdPart line y s) := by
  obtain ⟨hd, hf⟩ := (switchPart_others h).2.2 line
  rw [holdPart_quiet (s := switchPart x s) (by rw [hd, hf]; exact hq), holdPart_quiet hq]
  rcases (show line = 0 ∨ line = 1 by omega) with rfl | rfl
  · exact (switchPart_paced (holdTick_unread 0 y) h h rfl).symm
  · exact (switchPart_paced (holdTick_unread 1 y) h h rfl).symm

/-! ### The step -/

section

variable {h0 h1 closed : Bool}

theorem modeStep_timer (s : State) : modeStep h0 h1 closed s = modeStep h0 h1 closed (modeTimerPart s) := by
  rw [modeStep, modeStep, modeTimerPart_idem]

theorem modeStep_liveness (h : LivenessExpires s) (hq : TimerQuiet s) :
    modeStep h0 h1 closed s = modeStep h0 h1 closed (livenessPart s) := by
  have h' : LivenessExpires (modeTimerPart s) := by rw [modeTimerPart_quiet hq]; exact h
  rw [modeStep, modeStep, livenessPart_timer h hq, livenessPart_idem h']

variable (hq : TimerQuiet s) (hl : LivenessQuiet s)
include hq hl

/-- The state after the two timers' parts without an expiry. -/
theorem timerParts_quiet : livenessPart (modeTimerPart s) = (s.paced timerTick).paced livenessTick := by
  rw [modeTimerPart_quiet hq]; exact livenessPart_quiet (s := s.paced timerTick) hl

theorem modeStep_hold0 (h : HoldEdge 0 h0 s) : modeStep h0 h1 closed s = modeStep h0 h1 closed (holdPart 0 h0 s) := by
  have ht : livenessPart (modeTimerPart (holdPart 0 h0 s)) = holdPart 0 h0 (livenessPart (modeTimerPart s)) := by
    rw [holdPart_timer h hq, modeTimerPart_quiet hq]
    exact holdPart_liveness (s := s.paced timerTick) h hl
  have h' : HoldEdge 0 h0 (livenessPart (modeTimerPart s)) := by rw [timerParts_quiet hq hl]; exact h
  rw [modeStep, modeStep, ht, holdPart_idem h']

variable (hf : FilterQuiet s.parts.hold0 s.mode.h0 h0)
include hf

/-- The state after the two timers' parts and H0's without an expiry or an edge. -/
theorem hold0Part_quiet : holdPart 0 h0 (livenessPart (modeTimerPart s)) =
    ((s.paced timerTick).paced livenessTick).paced (holdTick 0 h0) := by
  rw [timerParts_quiet hq hl]; exact holdPart_quiet (s := (s.paced timerTick).paced livenessTick) hf

theorem modeStep_hold1 (h : HoldEdge 1 h1 s) : modeStep h0 h1 closed s = modeStep h0 h1 closed (holdPart 1 h1 s) := by
  have ht : livenessPart (modeTimerPart (holdPart 1 h1 s)) = holdPart 1 h1 (livenessPart (modeTimerPart s)) := by
    rw [holdPart_timer h hq, modeTimerPart_quiet hq]
    exact holdPart_liveness (s := s.paced timerTick) h hl
  have h2 : HoldEdge 1 h1 (livenessPart (modeTimerPart s)) := by rw [timerParts_quiet hq hl]; exact h
  have h3 : HoldEdge 1 h1 (holdPart 0 h0 (livenessPart (modeTimerPart s))) := by rw [hold0Part_quiet hq hl hf]; exact h
  have hh : holdPart 0 h0 (holdPart 1 h1 (livenessPart (modeTimerPart s))) =
      holdPart 1 h1 (holdPart 0 h0 (livenessPart (modeTimerPart s))) :=
    holdPart_one_zero h2 (by rw [timerParts_quiet hq hl]; exact hf)
  rw [modeStep, modeStep, ht, hh, holdPart_idem h3]

variable (hg : FilterQuiet s.parts.hold1 s.mode.h1 h1)
include hg

/-- The state after all parts but the switch's without an expiry or an edge. -/
theorem hold1Part_quiet : holdPart 1 h1 (holdPart 0 h0 (livenessPart (modeTimerPart s))) =
    (((s.paced timerTick).paced livenessTick).paced (holdTick 0 h0)).paced (holdTick 1 h1) := by
  rw [hold0Part_quiet hq hl hf]; exact holdPart_quiet (s := ((s.paced timerTick).paced livenessTick).paced (holdTick 0 h0)) hg

theorem modeStep_switch (h : SwitchEdge closed s) : modeStep h0 h1 closed s = modeStep h0 h1 closed (switchPart closed s) := by
  have ht : livenessPart (modeTimerPart (switchPart closed s)) = switchPart closed (livenessPart (modeTimerPart s)) := by
    rw [switchPart_timer h hq, modeTimerPart_quiet hq]
    exact switchPart_liveness (s := s.paced timerTick) h hl
  have h2 : SwitchEdge closed (livenessPart (modeTimerPart s)) := by rw [timerParts_quiet hq hl]; exact h
  have h3 : SwitchEdge closed (holdPart 0 h0 (livenessPart (modeTimerPart s))) := by rw [hold0Part_quiet hq hl hf]; exact h
  have h4 : SwitchEdge closed (holdPart 1 h1 (holdPart 0 h0 (livenessPart (modeTimerPart s)))) := by
    rw [hold1Part_quiet hq hl hf hg]; exact h
  rw [modeStep, modeStep, ht, switchPart_hold (line := 0) h2 (by rw [timerParts_quiet hq hl]; exact hf),
    switchPart_hold (line := 1) h3 (by rw [hold0Part_quiet hq hl hf]; exact hg), switchPart_idem h4]

/-- The step without an expiry or an edge. -/
theorem modeStep_quiet (hs : FilterQuiet s.parts.switch s.mode.switch closed) : modeStep h0 h1 closed s =
    ((((s.paced timerTick).paced livenessTick).paced (holdTick 0 h0)).paced (holdTick 1 h1)).paced (switchTick closed) := by
  rw [modeStep, hold1Part_quiet hq hl hf hg]
  exact switchPart_quiet (s := (((s.paced timerTick).paced livenessTick).paced (holdTick 0 h0)).paced (holdTick 1 h1)) hs

end

/-- A command that acts in one case alone. -/
theorem next_ite {p : Prop} [Decidable p] {u v : State}
    (h : (Host.Outcome.next (if p then v else s) : Host.Outcome State Fault Refusal) = .next u) : (p ∧ u = v) ∨ u = s := by
  have h := (Host.Outcome.next.inj h).symm
  split at h
  · rename_i hp; exact .inl ⟨hp, h⟩
  · exact .inr h

/-- The command of a mode timer's expiry is its part or nothing. -/
theorem exec_timerExpiry {i : Instr} {u : State} (hi : i = .startFlashExpiry ∨ i = .allStopExpiry ∨ i = .flashEntryTimerExpiry)
    (h : exec i s = .next u) : u = modeTimerPart s ∨ u = s := by
  rcases hi with rfl | rfl | rfl <;> exact (next_ite h).imp_left And.right

/-- Settles O14: the quiet parts write what no other part reads, and so an expiry or an edge changes places with those before it. -/
theorem modeControllerStepAdvancesTheTimers : Obligations.ModeControllerStepAdvancesTheTimers := by
  unfold Obligations.ModeControllerStepAdvancesTheTimers
  intro s h0 h1 closed advances lives timerQuiet livenessQuiet quiet sampled steps
  have steps_eq : ∀ {u}, modeStep h0 h1 closed s = modeStep h0 h1 closed u → steps s = steps u := congrArg Host.Outcome.next
  have liveness : livenessQuiet → LivenessQuiet s := fun hl hr => hl ((livenessRuns_eq s).symm.trans hr)
  refine ⟨fun hq hl hf hg hs => ?_, fun i u hi h => ?_, fun u hq h => ?_, fun u hq hl h => ?_, fun u hq hl hf h => ?_,
    fun u hq hl hf hg h => ?_⟩
  · show Host.Outcome.next (modeStep h0 h1 closed s) = _
    rw [modeStep_quiet hq (liveness hl) hf hg hs]; rfl
  · rcases exec_timerExpiry hi h with rfl | rfl
    · exact steps_eq (modeStep_timer s)
    · rfl
  · rcases next_ite h with ⟨he, rfl⟩ | rfl
    · exact steps_eq (modeStep_liveness he hq)
    · rfl
  · rcases next_ite h with ⟨he, rfl⟩ | rfl
    · exact steps_eq (modeStep_hold0 hq (liveness hl) he)
    · rfl
  · rcases next_ite h with ⟨he, rfl⟩ | rfl
    · exact steps_eq (modeStep_hold1 hq (liveness hl) hf he)
    · rfl
  · rcases next_ite h with ⟨he, rfl⟩ | rfl
    · exact steps_eq (modeStep_switch hq (liveness hl) hf hg he)
    · rfl

end Sys2Proof.Machine

/-! PROOFS. Where the records of one moment stand among each other: those of which each must follow the one before stand in the order in which
they were submitted (R148). -/

namespace Sys2Proof.Machine

open Sys2Proof

/-- A submission as a record that no missed count has been given. -/
def saidRecord (c : Said) : Record := ⟨c.1, c.2.1, c.2.2.1, c.2.2.2, 0⟩

/-- The later of two submissions stands after the earlier wherever a rule says so (R110, R148). -/
def Follows (earlier later : Said) : Prop := mustFollow (saidRecord later) (saidRecord earlier) = true

theorem follows_of_block {c d : Said} (h : d.1.block = c.1.block) : Follows c d := by simp [Follows, mustFollow, saidRecord, h]

/-- Records of one block stand in the order of their submission (R148). -/
theorem follows_chain_of_block {l : List Said} {b : Block} (h : ∀ c ∈ l, c.1.block = b) : l.IsChain Follows :=
  (List.pairwise_of_forall_mem_list fun c hc d hd => follows_of_block ((h d hd).trans (h c hc).symm)).isChain

/-- A submission that must follow the last of the records with property `p` stands after all of them; any other changes none of them. -/
theorem Queue.StartsWith.submit_filter {base rest : List Said} {q : Queue} (hq : q.StartsWith base rest) (h : q.held.length < 128)
    (c : Said) : ∃ rest', (q.submit c.1 c.2.1 c.2.2.1 c.2.2.2).StartsWith base rest' ∧ ∀ p : Said → Bool,
      (p c = true → ∀ d ∈ (rest.filter p).getLast?, Follows d c) → rest'.filter p = rest.filter p ++ [c].filter p := by
  obtain ⟨front, back, rfl, hs, hb⟩ := hq.submit h c.1 c.2.1 c.2.2.1 c.2.2.2
  refine ⟨front ++ c :: back, hs, fun p hp => ?_⟩
  rcases hpc : p c with _ | _
  · simp [hpc]
  · have hback : back.filter p = [] := by
      by_contra hne
      have hlast := List.getLast?_append_of_ne_nil (front.filter p) hne
      rw [List.getLast?_eq_some_getLast hne, ← List.filter_append] at hlast
      obtain ⟨y, hy, hn⟩ := hb _ (List.mem_filter.1 (List.getLast_mem hne)).1
      have hf := hp hpc _ hlast
      rw [← hy] at hf
      exact absurd (hf.symm.trans hn) (by simp)
    simp [hpc, hback]

/-- Submissions with room: those with property `p`, where each must follow the one before, stand in their order after the earlier ones. -/
theorem Queue.StartsWith.submits_filter (l : List Said) {base rest : List Said} {q : Queue} (hq : q.StartsWith base rest)
    (h : q.held.length + l.length ≤ 128) : ∃ rest', (q.submits l).StartsWith base rest' ∧ ∀ p : Said → Bool,
      (rest.filter p ++ l.filter p).IsChain Follows → rest'.filter p = rest.filter p ++ l.filter p := by
  induction l generalizing q rest with
  | nil => exact ⟨rest, hq, fun p _ => by simp⟩
  | cons c l ih =>
    rw [List.length_cons] at h
    have hl := Queue.submit_length (q := q) (by omega) c.1 c.2.1 c.2.2.1 c.2.2.2
    obtain ⟨rest1, hs1, h1⟩ := hq.submit_filter (by omega) c
    obtain ⟨rest2, hs2, h2⟩ := ih hs1 (by omega)
    refine ⟨rest2, hs2, fun p hp => ?_⟩
    have hcons : (c :: l).filter p = [c].filter p ++ l.filter p := by rw [← List.filter_append]; rfl
    rw [hcons] at hp ⊢
    have hlast : p c = true → ∀ d ∈ (rest.filter p).getLast?, Follows d c := fun hpc d hd => by
      obtain ⟨-, -, hj⟩ := List.isChain_append.1 hp
      exact hj d hd c (by simp [hpc])
    rw [← List.append_assoc] at hp ⊢
    rw [h2 p (by rwa [h1 p hlast]), h1 p hlast]

/-- Where no earlier submission of the moment can be passed, submissions with room stand after all the records held. -/
theorem Queue.submits_after (l : List Said) {q : Queue} (hf : q.fresh = 0) (h : q.held.length + l.length ≤ 128) :
    ∃ new, (q.submits l).contents = q.contents ++ new ∧ ∀ p : Said → Bool, (l.filter p).IsChain Follows → new.filter p = l.filter p := by
  have start : q.StartsWith q.contents [] := ⟨by simp, by simp [Queue.contents, hf]⟩
  obtain ⟨new, hs, hp⟩ := start.submits_filter l h
  exact ⟨new, hs.contents, fun p hc => by simpa using hp p (by simpa using hc)⟩

/-- Records of one block, none of the moment before them, stand at the tail in their order. -/
theorem Queue.submits_tail {l : List Said} {b : Block} {q : Queue} (hb : ∀ c ∈ l, c.1.block = b) (hf : q.fresh = 0)
    (h : q.held.length + l.length ≤ 128) : (q.submits l).contents = q.contents ++ l := by
  obtain ⟨new, hc, hp⟩ := Queue.submits_after l hf h
  have hn := hp (fun _ => true) (follows_chain_of_block fun c hc => hb c (List.mem_filter.1 hc).1)
  simp only [List.filter_true] at hn
  rw [hc, hn]

/-- The records of some blocks among records that are all of one block. -/
theorem filter_of_block {l : List Said} {b : Block} (hl : ∀ c ∈ l, c.1.block = b) (P : Block → Bool) :
    l.filter (fun c => P c.1.block) = if P b then l else [] := by
  split
  · rename_i h; exact List.filter_eq_self.2 fun c hc => by rw [hl c hc]; exact h
  · rename_i h; exact List.filter_eq_nil_iff.2 fun c hc => by rw [hl c hc]; exact h

end Sys2Proof.Machine

/-! PROOFS. One lamp sample: what it declares and what it reports, as lists in the order of R110. -/

namespace Sys2Proof.Machine

open Sys2Proof

/-! ### The declarations -/

variable (x : SenseSample) (s : State)

/-- The group is configured with proving ON (R103). -/
def Proved (g : GroupNo) : Prop := s.configured g = true ∧ (s.record g).proving = true

/-- The stretched sense of a group's line with the sample in the window (R101). -/
def Sensed (g : GroupNo) (line : Line) : Prop := ∃ y ∈ (x :: s.lamps.samples).take 6, (senseLine y line).getLsbD g.val = true

/-- Commanded-GO with the running interval closed (R102). -/
def Commanded (g : GroupNo) : Prop := ∃ m ∈ (s.lamps.goMark :: s.lamps.goIntervals).take 6, m.getLsbD g.val = true

/-- A run that advances reaches PD with its mark clear (R103, R104). -/
def RunDue (r : Run) : Prop := r.mark = false ∧ s.active.timing.provingDelay.toNat ≤ min (r.count + 1) 255

theorem proved_iff (g : GroupNo) : proved (reading x s) g = true ↔ Proved s g := by simp [proved, Proved]; rfl

theorem stretchedOn_iff (g : GroupNo) (line : Line) : stretchedOn (reading x s) g line = true ↔ Sensed x s g line := by
  rw [stretchedOn, stretched_getLsbD, List.any_eq_true]; rfl

theorem commandedGo_iff (g : GroupNo) : (reading x s).lamps.commandedGo.getLsbD g.val = true ↔ Commanded s g := by
  rw [commandedGo_getLsbD, List.any_eq_true]; rfl

theorem declares_iff (found : Bool) (r : Run) :
    declares found (provingDelay (reading x s)) r = true ↔ found = true ∧ RunDue s r := by
  have hp : provingDelay (reading x s) = s.active.timing.provingDelay.toNat := rfl
  rw [hp]
  unfold declares RunDue nextCount satAdd Config.byteLimit
  cases found <;> simp [and_comm]

theorem lampOutMode_iff : lampOutMode (reading x s) = true ↔
    s.mode.mode = .allStop ∨ s.mode.mode = .normal ∨ s.mode.mode = .toFlash := by
  show (decide (s.mode.mode = .allStop) || (decide (s.mode.mode = .normal) || decide (s.mode.mode = .toFlash))) = true ↔ _
  simp

theorem lampOutFound_iff (g : GroupNo) (line : Line) : lampOutFound (reading x s) g line = true ↔
    Proved s g ∧ (s.mode.mode = .allStop ∨ s.mode.mode = .normal ∨ s.mode.mode = .toFlash) ∧ s.drive g line = .steady ∧
      ¬Sensed x s g line := by
  have hd : (reading x s).drive g line = s.drive g line := rfl
  rw [lampOutFound, hd, Bool.and_eq_true, Bool.and_eq_true, Bool.and_eq_true, proved_iff, lampOutMode_iff, decide_eq_true_iff,
    Bool.not_eq_true', ← Bool.not_eq_true, stretchedOn_iff, and_assoc, and_assoc]

/-- CONFLICT is declared for the pair (R105). -/
theorem conflictDeclared_iff (j i : GroupNo) : conflictDeclared (reading x s) j i = true ↔
    j < i ∧ Proved s j ∧ Proved s i ∧ s.active.conflictBit j i = true ∧ Sensed x s j .go ∧ Sensed x s i .go ∧
      RunDue s ((s.lamps.conflictRuns.get j).get i) := by
  have hb : (reading x s).active.conflictBit j i = s.active.conflictBit j i := rfl
  rw [conflictDeclared, declares_iff, conflictFound, conflictApplies, hb]
  simp only [Bool.and_eq_true, proved_iff, stretchedOn_iff, decide_eq_true_iff, and_assoc]
  rfl

/-- UNCOMMANDED_GO is declared for the group (R106). -/
theorem uncommandedDeclared_iff (g : GroupNo) : uncommandedDeclared (reading x s) g = true ↔
    Proved s g ∧ Sensed x s g .go ∧ ¬Commanded s g ∧ RunDue s (s.lamps.uncommandedRuns.get g) := by
  rw [uncommandedDeclared, declares_iff, uncommandedFound]
  simp only [Bool.and_eq_true, Bool.not_eq_true', ← Bool.not_eq_true, proved_iff, stretchedOn_iff, commandedGo_iff, and_assoc]
  rfl

/-- RED_OUT is declared for the group (R107). -/
theorem redOutDeclared_iff (g : GroupNo) : redOutDeclared (reading x s) g = true ↔
    Proved s g ∧ (s.mode.mode = .allStop ∨ s.mode.mode = .normal ∨ s.mode.mode = .toFlash) ∧ s.drive g .stop = .steady ∧
      ¬Sensed x s g .stop ∧ (s.record g).redundant = false ∧ RunDue s (s.lamps.stopOutRuns.get g) := by
  have hr : ((reading x s).record g).redundant = (s.record g).redundant := rfl
  have hn : (reading x s).lamps.stopOutRuns = s.lamps.stopOutRuns := rfl
  rw [redOutDeclared, Bool.and_eq_true, declares_iff, lampOutFound_iff, hr, hn, Bool.not_eq_true']
  tauto

/-- What the declarations of a reading are (R110). -/
theorem mem_declarations {r : State} {d : FaultCause × Byte × Byte} : d ∈ declarations r ↔
    (∃ j i, conflictDeclared r j i = true ∧ (.conflict, subjectOf j.val, subjectOf i.val) = d) ∨
    (∃ g, uncommandedDeclared r g = true ∧ (.uncommandedGo, subjectOf g.val, 0xFF) = d) ∨
    ∃ g, redOutDeclared r g = true ∧ (.redOut, subjectOf g.val, 0xFF) = d := by
  simp only [declarations, List.mem_append, List.mem_flatMap, List.mem_map, List.mem_filter, List.mem_finRange, true_and, or_assoc]

/-- Declarations taken one after another (R110). -/
def declareAll (l : List (FaultCause × Byte × Byte)) (s : State) : State := l.foldl (fun s d => declareFault d.1 d.2.1 d.2.2 s) s

theorem declareAll_declarations (r s : State) :
    declareAll (declarations r) s = declareRedOut r (declareUncommanded r (declareConflicts r s)) := by
  simp only [declareAll, declarations, List.foldl_append, List.foldl_flatMap, List.foldl_map, List.foldl_filter]
  rfl

/-! ### The reports -/

/-- The LAMP_FAIL record of a report (R109). -/
def reportRecord (r : State) (p : GroupNo × Line) : Said :=
  (.lampFail, lowWord r.clock, subjectOf p.1.val, lampFailDetail p.2 (r.group p.1).state)

/-- Records submitted one after another, all stamped with the clock as it stands (R148). -/
def State.says (l : List Said) (s : State) : State := { s with queue := s.queue.submits l }

theorem State.says_append (l k : List Said) (s : State) : s.says (l ++ k) = (s.says l).says k := by
  rw [State.says, Queue.submits_append]; rfl

/-- Operations that each submit one record submit a list of them. -/
theorem foldl_says {α : Type} {P : State → Prop} {f : State → α → State} {said : α → Said} (hP : ∀ t l, P t → P (t.says l))
    (hf : ∀ t a, P t → f t a = t.says [said a]) (l : List α) {s : State} (hs : P s) : l.foldl f s = s.says (l.map said) := by
  induction l generalizing s with
  | nil => rfl
  | cons a l ih => rw [List.foldl_cons, hf s a hs, ih (hP s _ hs), ← State.says_append]; rfl

/-- The reports of a sample are its LAMP_FAIL records (R110). -/
theorem reportLamps_eq (r : State) {s : State} (hc : s.clock = r.clock) : reportLamps r s = s.says ((lampReports r).map (reportRecord r)) := by
  have hfold : reportLamps r s = (lampReports r).foldl
      (fun s p => submit .lampFail (subjectOf p.1.val) (lampFailDetail p.2 (r.group p.1).state) s) s := by
    simp only [lampReports, List.foldl_flatMap, List.foldl_map, List.foldl_filter]
    rfl
  rw [hfold]
  refine foldl_says (P := fun t => t.clock = r.clock) (fun _ _ => id) (fun t p ht => ?_) _ hc
  unfold State.says reportRecord
  rw [← ht]; rfl

/-- In the flash modes no line is reported (R107, R108). -/
theorem lampReports_nil (h : lampOutMode (reading x s) = false) : lampReports (reading x s) = [] := by
  have none : ∀ g line, lampReported (reading x s) g line = false := fun g line => by
    simp [lampReported, lampFailing, lampOutFound, h]
  simp [lampReports, none]

end Sys2Proof.Machine

/-! PROOFS. Fault entry (R64, R65, R66): what it leaves, and the records of a sample that declares. -/

namespace Sys2Proof.Machine

open Sys2Proof

/-! ### The entry -/

/-- The FAULT record of a declaration, latched or not (R64, R66). -/
def faultRecord (latched : Bool) (s : State) (d : FaultCause × Byte × Byte) : Said :=
  (.fault, lowWord s.clock, d.2.1, faultDetail d.1 d.2.2 latched)

/-- The GROUP_STATE records of the orders into FLASHING, in ascending group number (R8, R64). -/
def flashingRecords (s : State) : List Said :=
  ((List.finRange 32).filter fun g => s.configured g = true ∧ (s.group g).state ≠ .flashing).map fun g =>
    groupRecord s g .flashing (s.group g).state

section

variable (c : FaultCause) (a b : Byte) (s : State)

theorem faultEntry_sweep : Sweep (fun g => orderEffect .flashing (faultStart c a b s) g (s.group g)) (faultStart c a b s)
    (faultEntry c a b s) := orderAll_sweep .flashing (faultStart c a b s)

/-- A fault entry starts no timer: FAULT_FLASH has none (R47). -/
theorem faultEntry_stands : TimerStands (faultStart c a b s) (faultEntry c a b s) :=
  (Pass.mode (faultEntry_sweep c a b s)).resolve_right fun h => by
    have hm : (faultStart c a b s).mode.mode = .faultFlash := rfl
    rcases h.1 with k | k <;> rw [hm] at k <;> cases k

theorem faultEntry_records : sweepRecords (faultStart c a b s) (fun g => orderEffect .flashing (faultStart c a b s) g (s.group g)) =
    flashingRecords s := by
  have turn : ∀ g, (if (faultStart c a b s).configured g then (orderEffect .flashing (faultStart c a b s) g (s.group g)).records else []) =
      if s.configured g = true ∧ (s.group g).state ≠ .flashing then [groupRecord s g .flashing (s.group g).state] else [] := fun g => by
    have hc : (faultStart c a b s).configured g = s.configured g := rfl
    rw [hc]
    unfold orderEffect
    by_cases h1 : s.configured g = true <;> by_cases h2 : (s.group g).state = .flashing <;> simp [h1, h2, Effect.stay, Effect.enter]
    rfl
  unfold sweepRecords flashingRecords
  rw [funext turn]
  generalize List.finRange 32 = l
  induction l with
  | nil => rfl
  | cons g l ih =>
    rw [List.flatMap_cons, ih, List.filter_cons]
    split <;> rename_i h <;> simp [h]

/-- The submissions of a fault entry: the FAULT record before the MODE record, and the orders' after them (R64). -/
theorem faultEntry_queue : (faultEntry c a b s).queue =
    s.queue.submits (faultRecord false s (c, a, b) :: modeRecord .faultFlash .fault s :: flashingRecords s) := by
  rw [(faultEntry_sweep c a b s).queue, faultEntry_records]; rfl

/-- What a fault entry leaves, beside the records (R9, R46, R47, R64, R65, R158). -/
structure FaultTaken (t : State) : Prop where
  mode : t.mode = { s.mode with
    mode := .faultFlash, cause := .fault, normalPending := false, startFlashTimer := 0, allStopTimer := 0, flashEntryTimer := 0
    running := false }
  store : t.store = { s.store with nv := { s.store.nv with
    lastFault := ⟨some c, a, b, s.clock, s.mode.mode⟩
    faultEntries := min (s.store.nv.faultEntries + 1) 16777215 } }
  page : t.page = { s.page with liveness := 0 }
  groups : ∀ g, s.configured g = true → t.group g = (s.group g).ordered .flashing
  unconfigured : ∀ g, s.configured g = false → t.group g = s.group g
  heldBack : HeldBack s t false
  heldModeTimer : t.parts.heldModeTimer = false
  attn : t.attn = !s.held

theorem faultEntry_taken : FaultTaken c a b s (faultEntry c a b s) := by
  have h := faultEntry_sweep c a b s
  have hf := h.frame
  have hs := faultEntry_stands c a b s
  have hg : ∀ g, s.configured g = true → (faultEntry c a b s).group g = (orderEffect .flashing (faultStart c a b s) g (s.group g)).group :=
    fun g hc => h.group (s := faultStart c a b s) hc
  have hr := fun g => orderEffect_regular (faultStart c a b s) g (s.group g) (st := .flashing) (by simp)
  refine ⟨hs.mode, hf.store, hf.page, fun g hc => (hg g hc).trans (orderEffect_group ..), fun g hc => h.unconfigured hc, fun g => ?_,
    hs.heldModeTimer, ?_⟩
  · have ht := h.timers g
    have he := h.elapsed g
    rw [(hr g).timers] at ht
    rw [(hr g).elapsed] at he
    rw [ht, he]
    show (s.parts.heldTimers.getLsbD g.val || (s.parts.sequencer && (s.configured g && _))) = _ ∧
      (s.parts.heldElapsed.getLsbD g.val || (s.parts.sequencer && (s.configured g && _))) = _
    unfold entersState
    rcases hc : s.configured g with _ | _
    · simp
    · rw [hg g hc]; simp [Bool.and_assoc]
  · have hheld : (faultEntry c a b s).held = s.held := hf.held
    have hm := faultEntry_mode c a b s
    unfold State.attn
    rw [hheld, hm]; simp

end

/-! ### The declarations of a sample, taken -/

/-- In FAULT_FLASH each declaration submits a latched FAULT record and does nothing else (R66). -/
theorem declareAll_latched {s : State} (h : s.mode.mode = .faultFlash) (l : List (FaultCause × Byte × Byte)) :
    declareAll l s = s.says (l.map (faultRecord true s)) := by
  refine foldl_says (P := fun t => t.mode.mode = .faultFlash ∧ t.clock = s.clock) (fun _ _ => id) (fun t d ht => ?_) l ⟨h, rfl⟩
  rw [declareFault_latched _ _ _ _ ht.1]
  unfold State.says faultRecord
  rw [← ht.2]; rfl

/-- Outside FAULT_FLASH the first declaration enters it, and the later ones find it (R64, R66). -/
theorem declareAll_entry {s : State} (h : s.mode.mode ≠ .faultFlash) (c : FaultCause) (a b : Byte)
    (later : List (FaultCause × Byte × Byte)) : declareAll ((c, a, b) :: later) s =
      (faultEntry c a b s).says (later.map (faultRecord true s)) := by
  have hclock : (faultEntry c a b s).clock = s.clock := (faultEntry_move c a b s).clock
  have hl : later.map (faultRecord true (faultEntry c a b s)) = later.map (faultRecord true s) := by
    unfold faultRecord; rw [hclock]
  rw [← hl, ← declareAll_latched (faultEntry_mode c a b s), ← declareFault_entry _ _ _ _ h]
  rfl

/-- The state of a sample that has reported and not declared yet (R110). -/
def sampleTold (x : SenseSample) (s : State) : State :=
  (judge (reading x s)).says ((lampReports (reading x s)).map (reportRecord (reading x s)))

theorem lampPart_eq {s : State} (h : s.parts.lamps = true) (x : SenseSample) :
    lampPart x s = openInterval (declareAll (declarations (reading x s)) (sampleTold x s)) := by
  have hr : reportLamps (reading x s) (judge (reading x s)) = sampleTold x s := reportLamps_eq (reading x s) rfl
  rw [lampPart, if_pos h, takeLampSample, declareAll_declarations, ← hr]

/-- A LAMP_FAIL record's place: the FAULT records of its sample follow it (R110). -/
theorem follows_lampFail {c d : Said} (hc : c.1 = .lampFail) (hd : d.1 = .fault) : Follows c d := by
  simp [Follows, mustFollow, saidRecord, hc, hd]

section

variable {q : Queue} {reports moves latched : List Said} {fault mode : Said} (hr : ∀ c ∈ reports, c.1 = .lampFail) (hf : fault.1 = .fault)
  (hm : mode.1 = .mode) (hg : ∀ c ∈ moves, c.1 = .groupState) (hl : ∀ c ∈ latched, c.1 = .fault)
include hr hf hm hg hl

/-- The submissions of a fault sample by block. -/
theorem faultSample_filter (P : Block → Bool) : (reports ++ (fault :: mode :: moves ++ latched)).filter (fun c => P c.1.block) =
    (if P .lampMonitor then reports else []) ++ (if P .modeController then [fault, mode] else []) ++
      (if P .groupSequencer then moves else []) ++ (if P .modeController then latched else []) := by
  have he : reports ++ (fault :: mode :: moves ++ latched) = reports ++ [fault, mode] ++ moves ++ latched := by simp
  have h2 : ∀ c ∈ [fault, mode], c.1.block = .modeController := fun c hc => by
    rcases List.mem_pair.1 hc with rfl | rfl
    · rw [hf]; rfl
    · rw [hm]; rfl
  rw [he, List.filter_append, List.filter_append, List.filter_append, filter_of_block (b := .lampMonitor) (fun c hc => by rw [hr c hc]; rfl) P,
    filter_of_block h2 P, filter_of_block (b := .groupSequencer) (fun c hc => by rw [hg c hc]; rfl) P,
    filter_of_block (b := .modeController) (fun c hc => by rw [hl c hc]; rfl) P]

omit hg in
/-- The lamp monitor's records and then the mode controller's: each must follow the one before. -/
theorem faultSample_chain : (reports ++ fault :: mode :: latched).IsChain Follows := by
  refine List.isChain_append.2 ⟨follows_chain_of_block (b := .lampMonitor) fun c hc => by rw [hr c hc]; rfl,
    follows_chain_of_block (b := .modeController) fun c hc => ?_, fun c hc d hd => ?_⟩
  · rcases List.mem_cons.1 hc with rfl | hc
    · rw [hf]; rfl
    rcases List.mem_cons.1 hc with rfl | hc
    · rw [hm]; rfl
    · rw [hl c hc]; rfl
  · obtain rfl : fault = d := by simpa using hd
    exact follows_lampFail (hr c (List.mem_of_getLast? hc)) hf

/-- The records of a fault sample: by block, and, where none of the moment stood before, the LAMP_FAIL, FAULT and MODE records in their order
with the GROUP_STATE records anywhere among them (R64, R110, R148). -/
theorem faultSample_records (h : q.held.length + (reports ++ (fault :: mode :: moves ++ latched)).length ≤ 128) {q' : Queue}
    (hq : q' = q.submits (reports ++ (fault :: mode :: moves ++ latched))) :
    q'.ofBlock .lampMonitor = q.ofBlock .lampMonitor ++ reports ∧
    q'.ofBlock .modeController = q.ofBlock .modeController ++ fault :: mode :: latched ∧
    q'.ofBlock .groupSequencer = q.ofBlock .groupSequencer ++ moves ∧
    (∀ b, b ≠ .lampMonitor → b ≠ .modeController → b ≠ .groupSequencer → q'.ofBlock b = q.ofBlock b) ∧
    (q.fresh = 0 → ∃ new, q'.contents = q.contents ++ new ∧
      new.filter (fun n => n.1.block = .lampMonitor ∨ n.1.block = .modeController) = reports ++ fault :: mode :: latched ∧
      new.filter (fun n => ¬(n.1.block = .lampMonitor ∨ n.1.block = .modeController)) = moves) := by
  subst hq
  have byBlock := faultSample_filter hr hf hm hg hl
  have ofBlock := fun b => Queue.submits_ofBlock _ h b
  refine ⟨?_, ?_, ?_, fun b h1 h2 h3 => ?_, fun h0 => ?_⟩
  · rw [ofBlock, byBlock fun b => b = .lampMonitor]; simp
  · rw [ofBlock, byBlock fun b => b = .modeController]; simp
  · rw [ofBlock, byBlock fun b => b = .groupSequencer]; simp
  · rw [ofBlock, byBlock fun b' => b' = b]; simp [h1.symm, h2.symm, h3.symm]
  · obtain ⟨new, hc, hp⟩ := Queue.submits_after _ h0 h
    have lamps := (byBlock fun b => b = .lampMonitor ∨ b = .modeController).trans
      (by simp : _ = reports ++ fault :: mode :: latched)
    have others := (byBlock fun b => ¬(b = .lampMonitor ∨ b = .modeController)).trans (by simp : _ = moves)
    refine ⟨new, hc, (hp _ ?_).trans lamps, (hp _ ?_).trans others⟩
    · rw [lamps]; exact faultSample_chain hr hf hm hl
    · rw [others]; exact follows_chain_of_block (b := .groupSequencer) fun c hc => by rw [hg c hc]; rfl

end

/-! ### The sample -/

/-- A sample that declares outside FAULT_FLASH. -/
theorem lampPart_entry {s : State} {x : SenseSample} (h : s.parts.lamps = true) (hm : s.mode.mode ≠ .faultFlash) {c : FaultCause}
    {a b : Byte} {later : List (FaultCause × Byte × Byte)} (hd : declarations (reading x s) = (c, a, b) :: later) :
    FaultTaken c a b s (lampPart x s) ∧ (lampPart x s).queue = s.queue.submits
      ((lampReports (reading x s)).map (reportRecord (reading x s)) ++
        (faultRecord false s (c, a, b) :: modeRecord .faultFlash .fault s :: flashingRecords s ++ later.map (faultRecord true s))) := by
  have he : lampPart x s = openInterval ((faultEntry c a b (sampleTold x s)).says (later.map (faultRecord true (sampleTold x s)))) := by
    rw [lampPart_eq h, hd, declareAll_entry (s := sampleTold x s) hm]
  have ht := faultEntry_taken c a b (sampleTold x s)
  have hq := faultEntry_queue c a b (sampleTold x s)
  rw [he]
  generalize faultEntry c a b (sampleTold x s) = e at ht hq
  obtain ⟨h1, h2, h3, h4, h5, h6, h7, h8⟩ := ht
  refine ⟨⟨h1, h2, h3, h4, h5, h6, h7, ?_⟩, ?_⟩
  · have hheld : e.held = s.held := by
      have hfault : e.mode.mode = .faultFlash := by rw [h1]
      have := h8
      unfold State.attn at this
      rw [hfault] at this
      exact (by simpa using this : e.held = (sampleTold x s).held)
    show (!e.held && (_ || decide (e.mode.mode = .faultFlash))) = _
    rw [hheld, h1]; simp
  · show e.queue.submits _ = _
    rw [hq, Queue.submits_append, Queue.submits_append]; rfl

/-- The mode, the groups, the counters and the page stand: what a sample that enters no mode leaves (R66, R110). -/
def Stands (s t : State) : Prop := t.mode = s.mode ∧ t.groups = s.groups ∧ t.store = s.store ∧ t.page = s.page

theorem Stands.trans {s t u : State} (h : Stands s t) (k : Stands t u) : Stands s u := by
  obtain ⟨hm, hg, hs, hp⟩ := h
  obtain ⟨km, kg, ks, kp⟩ := k
  exact ⟨km.trans hm, kg.trans hg, ks.trans hs, kp.trans hp⟩

theorem stands_says (s : State) (l : List Said) : Stands s (s.says l) := ⟨rfl, rfl, rfl, rfl⟩

theorem stands_openInterval (s : State) : Stands s (openInterval s) := ⟨rfl, rfl, rfl, rfl⟩

/-- The judgements of a sample and its reports move none of these. -/
theorem stands_sampleTold (x : SenseSample) (s : State) : Stands s (sampleTold x s) :=
  have judged : Stands s (judge (reading x s)) := ⟨rfl, rfl, rfl, rfl⟩
  judged.trans (stands_says ..)

/-- A sample without a declaration leaves the mode, the groups, the counters and the page (R110). -/
theorem lampPart_stands {s : State} {x : SenseSample} (h : s.parts.lamps = true) (hd : declarations (reading x s) = []) :
    Stands s (lampPart x s) := by
  rw [lampPart_eq h, hd]; exact (stands_sampleTold x s).trans (stands_openInterval _)

/-- In FAULT_FLASH a sample reports nothing and submits a latched FAULT record for each declaration (R66, R107, R108). -/
theorem lampPart_latched {s : State} {x : SenseSample} (h : s.parts.lamps = true) (hm : s.mode.mode = .faultFlash) :
    Stands s (lampPart x s) ∧ (lampPart x s).queue = s.queue.submits ((declarations (reading x s)).map (faultRecord true s)) := by
  have hn : lampReports (reading x s) = [] := lampReports_nil x s (by
    rw [← Bool.not_eq_true, lampOutMode_iff, hm]; simp)
  have hq : (sampleTold x s).queue = s.queue := by rw [sampleTold, hn]; rfl
  rw [lampPart_eq h, declareAll_latched (s := sampleTold x s) hm]
  refine ⟨((stands_sampleTold x s).trans (stands_says ..)).trans (stands_openInterval _), ?_⟩
  show (sampleTold x s).queue.submits _ = _
  rw [hq]; rfl

/-- Latched FAULT records are the mode controller's, and stand at the tail where none of the moment stood before (R66, R148). -/
theorem latched_records {s : State} {q : Queue} (l : List (FaultCause × Byte × Byte)) (h : q.held.length + l.length ≤ 128) :
    (q.submits (l.map (faultRecord true s))).ofBlock .modeController = q.ofBlock .modeController ++ l.map (faultRecord true s) ∧
    (q.fresh = 0 → (q.submits (l.map (faultRecord true s))).contents = q.contents ++ l.map (faultRecord true s)) := by
  have hb : ∀ c ∈ l.map (faultRecord true s), c.1.block = .modeController := fun c hc => by
    obtain ⟨d, -, rfl⟩ := List.mem_map.1 hc; rfl
  have hl : q.held.length + (l.map (faultRecord true s)).length ≤ 128 := by rwa [List.length_map]
  refine ⟨?_, fun hf => Queue.submits_tail hb hf hl⟩
  rw [Queue.submits_ofBlock _ hl, filter_of_block hb fun b => b = .modeController]; simp

/-- There is at most one GROUP_STATE record for a group. -/
theorem flashingRecords_length (s : State) : (flashingRecords s).length ≤ 32 := by
  rw [flashingRecords, List.length_map]
  exact (List.length_filter_le ..).trans_eq (List.length_finRange ..)

/-- An order into FLASHING by cases (R9, R46, R64). -/
theorem Group.ordered_flashing (v : Group) : (v.ordered .flashing).state = .flashing ∧
    (v.state ≠ .flashing → v.ordered .flashing = ⟨.flashing, 0, 0, 0, false, false, v.elapsed, 0⟩) ∧
    (v.state = .flashing → v.ordered .flashing = v) := by
  unfold Group.ordered
  split <;> simp_all

/-- A command that is a sample's own effect where the sample holds the event, and no event where it does not. -/
theorem exec_sampleEvent {c : Instr} {b : Bool} {s t : State} {P : Prop} (hb : b = true ↔ P)
    (he : exec c s = .next (if b then t else s)) : (P → exec c s = .next t) ∧ (¬P → exec c s = .next s) := by
  rw [← hb, he]
  exact ⟨fun h => by rw [if_pos h], fun h => by rw [if_neg h]⟩

/-- Settles O26: the sample's declarations are one list, of which the first enters FAULT_FLASH and the rest find it; the records are the
chain LAMP_FAIL, FAULT, MODE, latched FAULT, with the groups' records free among them. -/
theorem declarationsEnterFaultFlashOnce : Obligations.DeclarationsEnterFaultFlashOnce := by
  intro s x h
  refine ⟨lampPart x s, rfl, fun j i => ?_, fun g => ?_, fun g => ?_, fun d hd => ?_, lampPart_stands h, fun hm => ?_,
    fun hm c a b later hd => ?_⟩
  · obtain ⟨yes, no⟩ := exec_sampleEvent (c := .conflict j i x) (conflictDeclared_iff x s j i) rfl
    exact ⟨fun k => ⟨mem_declarations.2 (.inl ⟨j, i, (conflictDeclared_iff x s j i).2 k, rfl⟩), yes k⟩, no⟩
  · obtain ⟨yes, no⟩ := exec_sampleEvent (c := .uncommandedGo g x) (uncommandedDeclared_iff x s g) rfl
    exact ⟨fun k => ⟨mem_declarations.2 (.inr (.inl ⟨g, (uncommandedDeclared_iff x s g).2 k, rfl⟩)), yes k⟩, no⟩
  · obtain ⟨yes, no⟩ := exec_sampleEvent (c := .redOut g x) (redOutDeclared_iff x s g) rfl
    exact ⟨fun k => ⟨mem_declarations.2 (.inr (.inr ⟨g, (redOutDeclared_iff x s g).2 k, rfl⟩)), yes k⟩, no⟩
  · rcases mem_declarations.1 hd with ⟨j, i, k, rfl⟩ | ⟨g, k, rfl⟩ | ⟨g, k, rfl⟩
    · exact .inl ⟨j, i, (conflictDeclared_iff x s j i).1 k, rfl⟩
    · exact .inr (.inl ⟨g, (uncommandedDeclared_iff x s g).1 k, rfl⟩)
    · exact .inr (.inr ⟨g, (redOutDeclared_iff x s g).1 k, rfl⟩)
  · obtain ⟨stands, hq⟩ := lampPart_latched (x := x) h hm
    refine ⟨stands, fun g ⟨_, hmode, _⟩ => by simp [hm] at hmode, fun room => ?_⟩
    rw [hq]
    exact latched_records _ room
  · obtain ⟨taken, hq⟩ := lampPart_entry h hm hd
    have ordered := fun g hc => taken.groups g hc ▸ Group.ordered_flashing (s.group g)
    refine ⟨taken.mode, taken.store, taken.page, ordered, taken.unconfigured, taken.heldBack, taken.heldModeTimer, taken.attn,
      fun room => ?_⟩
    have hmoves := flashingRecords_length s
    rw [hd] at room
    refine faultSample_records (moves := flashingRecords s) (fun c hc => ?_) rfl rfl (fun c hc => ?_) (fun c hc => ?_) ?_ hq
    · obtain ⟨p, -, rfl⟩ := List.mem_map.1 hc; rfl
    · obtain ⟨g, -, rfl⟩ := List.mem_map.1 hc; rfl
    · obtain ⟨d, -, rfl⟩ := List.mem_map.1 hc; rfl
    · simp only [List.length_append, List.length_cons, List.length_map] at room ⊢
      omega

end Sys2Proof.Machine

/-! PROOFS. Accesses that the device passes, and served writes that it drops or refuses (R69 to R72, R77 to R82). -/

namespace Sys2Proof.Machine

open Sys2Proof

/-! ### Passed accesses -/

/-- An address inside the guarded area is that of its area page and word offset (R70). -/
theorem guardedAddress_of_guarded {s : State} {a : Addr} (h : s.guarded a = true) :
    s.guardedAddress (areaPage a) (wordOffset a) = a := by
  obtain ⟨hs, ho⟩ : a.toNat / 65536 = s.tap.strap.toNat ∧ a.toNat % 65536 < 16384 := by simpa [State.guarded] using h
  apply BitVec.eq_of_toNat_eq
  have ha := a.isLt
  simp only [State.guardedAddress, areaPage, wordOffset, BitVec.toNat_ofNat, ← hs]
  omega

/-- An access to a word of the guarded area that is neither of the request page nor served is forwarded unchanged (R71, R72). -/
theorem busAccess_unserved {s : State} {a : Access} (h0 : ¬(areaPage a.addr = 0 ∧ wordOffset a.addr < 9))
    (hp : servedPage (areaPage a.addr) = false) : busAccess a s = passAccess a s := by
  rcases hg : s.held || !s.guarded a.addr with _ | _
  · have ha := guardedAddress_of_guarded (s := s) (a := a.addr) (by simpa using (Bool.or_eq_false_iff.1 hg).2)
    simp only [busAccess, passAccess, hg, guardedWrite_passed h0 hp, guardedRead_passed h0 hp, ha, Bool.false_eq_true, if_false]
  · simp only [busAccess, passAccess, hg, if_true]

/-- An access outside the guarded area is forwarded unchanged (R71, R72). -/
theorem busAccess_unguarded {s : State} {a : Access} (h : s.guarded a.addr = false) : busAccess a s = passAccess a s := by
  simp [busAccess, passAccess, h]

/-- Settles O37: under a reset, outside the guarded area and on a passed page of it the access is forwarded as it is. -/
theorem passedAccessReachesMemoryUnchanged : Obligations.PassedAccessReachesMemoryUnchanged := by
  intro s a offset h
  have hpass : busAccess a s = passAccess a s := by
    have hpage : areaPage a.addr = offset / 256 := rfl
    have hword : wordOffset a.addr = offset % 256 := by
      show a.addr.toNat % 256 = a.addr.toNat % 65536 % 256
      omega
    rcases h with hheld | hstrap | hout | hrequest | hseven | hlast
    · exact busAccess_held hheld a
    · exact busAccess_unguarded (by simp [State.guarded, hstrap])
    · exact busAccess_unguarded (by simpa [State.guarded] using fun _ => hout)
    · refine busAccess_unserved (by omega) ?_
      rw [hpage, Nat.div_eq_of_lt hrequest.2]; rfl
    · refine busAccess_unserved (by omega) ?_
      rw [hpage, show offset / 256 = 7 by omega]; rfl
    · refine busAccess_unserved (by omega) ?_
      have : 13 ≤ offset / 256 := by omega
      simp only [hpage, servedPage, Bool.or_eq_false_iff, Bool.and_eq_false_iff, decide_eq_false_iff_not]
      omega
  have hexec : exec (.passedAccess a) s = .next (passAccess a s) := congrArg Host.Outcome.next hpass
  refine ⟨fun hw => ?_, fun hw hr => ?_⟩ <;> rw [hexec]
  · simp [passAccess, passWrite, hw]
  · simp [passAccess, passRead, hw, hr]

/-! ### Served writes dropped and refused -/

/-- The access noted and nothing driven: what a served write leaves of the queue and the pins (notes/assumptions/41.md). -/
theorem beginAccess_eq (s : State) : beginAccess s = { s with queue := s.queue.atAccess, bus := ⟨none, none⟩ } := rfl

/-- A refusal of an access: its record alone (R77). -/
theorem submitRefused_beginAccess (page offset : Nat) (reason : Reason) (l : Level) (s : State) :
    submitRefused page offset reason l (beginAccess s) = { s with
      queue := s.queue.atAccess.submit .refused (lowWord s.clock) (areaOfPage page) (refusedDetail reason l (areaOffset page offset))
      bus := ⟨none, none⟩ } := rfl

/-- A write with no byte enabled or to an unassigned word is dropped (R80, R81). -/
theorem servedWrite_dropped {page offset : Nat} {w : BusWrite} (h : w.enables.any = false ∨ wordClass page offset = .unassigned)
    (s : State) : servedWrite page offset w s = s := by
  rcases h with h | h <;> simp [servedWrite, h]

/-- A write to a read-only word is refused at every level (R79). -/
theorem servedWrite_readOnly {page offset : Nat} {w : BusWrite} (hw : w.enables.any = true) (hc : wordClass page offset = .readOnly)
    (s : State) : servedWrite page offset w s = submitRefused page offset .readOnly w.level s := by
  simp [servedWrite, hw, hc]

/-- A write above the write level of its word is refused with LEVEL (R75, R77). -/
theorem servedWrite_level {page offset : Nat} {w : BusWrite} {s : State} (hw : w.enables.any = true)
    (hc : wordClass page offset = .stored ∨ wordClass page offset = .command)
    (hl : (writeLevel s page offset).toNat < w.level.toNat) :
    servedWrite page offset w s = submitRefused page offset .level w.level s := by
  have h : levelPasses w.level (writeLevel s page offset) = false := by rw [levelPasses_eq]; simpa using hl
  rcases hc with hc | hc <;> simp [servedWrite, hw, hc, h]

/-- The pages of the staging words in a REFUSED record's subject (R77). -/
theorem areaOfPage_staging (page : Fin 64) :
    areaOfPage page.val = if page = 8 ∨ page = 9 ∨ page = 10 ∨ page = 11 then 8 else BitVec.ofNat 8 page.val := by
  revert page; decide

/-- The offset in a REFUSED record is that of the staging area exactly where its subject is that area (R77). -/
theorem areaOffset_eq (page : Fin 64) (offset : Nat) :
    areaOffset page.val offset = if areaOfPage page.val = 8 then (page.val - 8) * 256 + offset else offset := by
  have h : (8 ≤ page.val ∧ page.val ≤ 11) ↔ areaOfPage page.val = 8 := by revert page; decide
  simp only [areaOffset, h, stagingOffset]

/-- Settles O39: the write is dropped or refused before it reaches the owning block. -/
theorem servedWritesAreRefusedByClassAndLevel : Obligations.ServedWritesAreRefusedByClassAndLevel := by
  intro s page offset w hheld hpage c required area word refused
  have hexec : exec (.servedWrite page offset w) s = .next (servedWrite page.val offset.val w (beginAccess s)) :=
    congrArg Host.Outcome.next (busWrite_served hheld hpage offset.val w)
  have hrefused : ∀ reason, servedWrite page.val offset.val w (beginAccess s) =
      submitRefused page.val offset.val reason w.level (beginAccess s) → refused reason := by
    intro reason h
    have harea : areaOfPage page.val = area := areaOfPage_staging page
    have hword : areaOffset page.val offset.val = word := (areaOffset_eq page offset.val).trans (by rw [harea])
    show exec _ s = _
    rw [hexec, h, submitRefused_beginAccess, harea, hword]
  have hlevel : (writeLevel (beginAccess s) page.val offset.val).toNat = required := by
    have h3 : page.val = 3 ↔ page = 3 := (Fin.ext_iff (b := 3)).symm
    have h4 : page.val = 4 ↔ page = 4 := (Fin.ext_iff (b := 4)).symm
    have h6 : page.val = 6 ↔ page = 6 := (Fin.ext_iff (b := 6)).symm
    have h12 : page.val = 12 ∧ offset.val = 5 ↔ page = 12 ∧ offset = 5 := 
      and_congr (Fin.ext_iff (b := 12)).symm (Fin.ext_iff (b := 5)).symm
    simp only [writeLevel, h3, h4, h6, h12, apply_ite BitVec.toNat]
    rfl
  refine ⟨fun h => ?_, fun hw hc => ?_, fun hw hc hl => ?_⟩
  · rw [hexec, servedWrite_dropped h, beginAccess_eq]
  · exact hrefused .readOnly (servedWrite_readOnly hw hc _)
  · exact hrefused .level (servedWrite_level hw hc (hlevel ▸ hl))

end Sys2Proof.Machine

/-! PROOFS. Reads of the request page (R78, R83, R93 to R95). -/

namespace Sys2Proof.Machine

open Sys2Proof

/-- A read above the level of the request page answers 0 (R78). -/
theorem requestRead_refused {s : State} {level : Level} (h : ¬level.toNat ≤ (requiredLevel s.tap.levelMap .request).toNat) (word : Nat)
    (e : ByteEnables) (memory : Word) : requestRead word e level memory s = answerRead 0 s := by
  simp [requestRead, levelPasses_eq, h]

section

variable {s : State} {word : Nat} {level : Level} (h : level.toNat ≤ (requiredLevel s.tap.levelMap .request).toNat)

include h

/-- A read of a word that mirrors a base word answers from that word's mirror (R93). -/
theorem requestRead_mirrored (hw : 2 ≤ word ∧ word < 8) (e : ByteEnables) (memory : Word) :
    requestRead word e level memory s = answerRead (s.page.mirror (word % 2)).value s := by
  simp [requestRead, levelPasses_eq, h, hw]

/-- A base word not written since the reset answers from its mirror (R94). -/
theorem requestRead_unwritten (hw : ¬(2 ≤ word ∧ word < 8)) (hm : (s.page.mirror word).written = false) (e : ByteEnables)
    (memory : Word) : requestRead word e level memory s = answerRead (s.page.mirror word).value s := by
  simp only [requestRead, levelPasses_eq, h, decide_true, Bool.true_eq_false, if_false, hw, hm, if_true]

/-- A written base word is compared with memory (R95). -/
theorem requestRead_compared (hw : ¬(2 ≤ word ∧ word < 8)) (hm : (s.page.mirror word).written = true) (e : ByteEnables)
    (memory : Word) : requestRead word e level memory s = comparedRead word e memory s := by
  simp only [requestRead, levelPasses_eq, h, decide_true, Bool.true_eq_false, if_false, hw, hm]

end

section

variable {s : State} {word : Nat} {m : MirrorWord} (hm : s.page.mirror word = m) (e : ByteEnables) {memory : Word}

include hm

/-- A compared read returns memory's word where it equals the mirror (R95). -/
theorem comparedRead_equal (h : memory = m.value) : comparedRead word e memory s =
    { s with bus := ⟨some memory, some ⟨false, s.guardedAddress 0 word, e, 0⟩⟩ } := by
  subst hm; exact if_pos h

/-- A difference found before is not recorded again (R95). -/
theorem comparedRead_known (h : memory ≠ m.value) (hk : m.mismatch = true) : comparedRead word e memory s =
    { s with bus := ⟨some m.value, some ⟨false, s.guardedAddress 0 word, e, 0⟩⟩ } := by
  subst hm; exact (if_neg h).trans (if_pos hk)

/-- The first difference is marked and recorded (R95). -/
theorem comparedRead_first (h : memory ≠ m.value) (hk : m.mismatch = false) : comparedRead word e memory s =
    submit .mirrorMismatch (BitVec.ofNat 8 word) memory { s with
      page := s.page.setMirror word { m with mismatch := true }
      bus := ⟨some m.value, some ⟨false, s.guardedAddress 0 word, e, 0⟩⟩ } := by
  subst hm; exact (if_neg h).trans (if_neg (by simp [hk]))

end

/-- The mirror of a word of the request page, words 2 to 7 standing for their base words (R84, R93). -/
theorem mirror_eq (p : RequestPage) (word : Fin 9) : p.mirror (if 2 ≤ word.val ∧ word.val < 8 then word.val % 2 else word.val) =
    if word = 8 then p.word8 else if word.val % 2 = 0 then p.word0 else p.word1 := by
  fin_cases word <;> rfl

/-- A base word's mirror replaced, field by field (R84). -/
theorem setMirror_eq (p : RequestPage) {word : Fin 9} (h : word.val < 2 ∨ word = 8) (m : MirrorWord) : p.setMirror word.val m = { p with
    word0 := if word = 0 then m else p.word0
    word1 := if word = 1 then m else p.word1
    word8 := if word = 8 then m else p.word8 } := by
  have hw : word = 0 ∨ word = 1 ∨ word = 8 := by omega
  rcases hw with rfl | rfl | rfl <;> rfl

/-- Settles O23: the read's four outcomes, each in its case of level, word and comparison. -/
theorem requestPageReadsStandByTheMirror : Obligations.RequestPageReadsStandByTheMirror := by
  intro s word e level memory hheld m answers cycle passes
  have hexec : exec (.requestBaseRead word e level memory) s = .next (requestRead word.val e level memory (beginAccess s)) :=
    congrArg Host.Outcome.next (busRead_request hheld word.isLt e level memory)
  have hm := mirror_eq s.page word
  have hbase : word.val < 2 ∨ word = 8 → ¬(2 ≤ word.val ∧ word.val < 8) := by omega
  have hmirror : word.val < 2 ∨ word = 8 → (beginAccess s).page.mirror word.val = m := fun hw => by
    rw [if_neg (hbase hw)] at hm; exact hm
  refine ⟨fun hl => ?_, fun hl hlow hhigh => ?_, fun hl hw hwritten => ?_, fun hl hw hwritten => ?_⟩
  · show exec _ s = _
    rw [hexec, requestRead_refused (s := beginAccess s) hl]; rfl
  · rw [if_pos ⟨hlow, hhigh⟩] at hm
    show exec _ s = _
    rw [hexec, requestRead_mirrored (s := beginAccess s) hl ⟨hlow, hhigh⟩, show (beginAccess s).page = s.page from rfl, hm]; rfl
  · rw [← hmirror hw] at hwritten
    show exec _ s = _
    rw [hexec, requestRead_unwritten (s := beginAccess s) hl (hbase hw) hwritten, hmirror hw]; rfl
  · rw [← hmirror hw] at hwritten
    have hread := requestRead_compared (s := beginAccess s) hl (hbase hw) hwritten e memory
    rw [hexec, hread]
    refine ⟨fun he => ?_, fun he hk => ?_, fun he hk => ?_⟩
    · rw [comparedRead_equal (hmirror hw) e he]; rfl
    · rw [comparedRead_known (hmirror hw) e he hk]; rfl
    · rw [comparedRead_first (hmirror hw) e he hk, show (beginAccess s).page = s.page from rfl, setMirror_eq s.page hw]
      rfl

end Sys2Proof.Machine

/-! PROOFS. Words made of bytes and of fields, and the bytes of a merged word (R81, R178). -/

namespace Sys2Proof.Machine

open Sys2Proof

/-- A value of two fields as a number: the high field counts whole widths of the low one. -/
theorem toNat_append_eq {m n : Nat} (x : BitVec m) (y : BitVec n) : (x ++ y).toNat = x.toNat * 2 ^ n + y.toNat := by
  rw [BitVec.toNat_append, Nat.shiftLeft_eq, Nat.mul_comm, ← Nat.two_pow_add_eq_or_of_lt y.isLt x.toNat]

/-- A word of two numbers is made of their low bytes. -/
theorem wordOf_eq_append (low high : Nat) : wordOf low high = BitVec.ofNat 8 high ++ BitVec.ofNat 8 low := by
  apply BitVec.eq_of_toNat_eq
  simp only [wordOf, toNat_append_eq, BitVec.toNat_ofNat]
  omega

@[simp] theorem lowByte_append (high low : Byte) : lowByte (high ++ low) = low := BitVec.extractLsb'_append_eq_right

@[simp] theorem highByte_append (high low : Byte) : highByte (high ++ low) = high := BitVec.extractLsb'_append_eq_left

/-- A word of two bytes read as numbers is those bytes. -/
theorem wordOf_bytes (low high : Byte) : wordOf low.toNat high.toNat = high ++ low := by simp [wordOf_eq_append]

/-- A merged word byte by byte (R81). -/
theorem mergeBytes_eq_append (old data : Word) (e : ByteEnables) : mergeBytes old data e =
    (if e.high then highByte data else highByte old) ++ (if e.low then lowByte data else lowByte old) := rfl

/-- The bits of the data of a write to a command word are those of its enabled bytes (R81). -/
theorem takenData_getLsbD (w : BusWrite) {k : Nat} (hk : k < 16) :
    (takenData w).getLsbD k = (w.data.getLsbD k && if k < 8 then w.enables.low else w.enables.high) := by
  rw [takenData, mergeBytes_getLsbD 0 w.data w.enables k hk]
  rcases (if k < 8 then w.enables.low else w.enables.high) with _ | _ <;> simp

/-- A bit of a mask lies in the word of its group (R124, 11.7). -/
theorem joinWords_getLsbD (low high : Word) (g : GroupNo) :
    (joinWords low high).getLsbD g.val = (if g.val / 16 = 0 then low else high).getLsbD (g.val % 16) := by
  have hg := g.isLt
  rw [joinWords, BitVec.getLsbD_append]
  by_cases h : g.val < 16
  · rw [if_pos h, if_pos (Nat.div_eq_of_lt h), Nat.mod_eq_of_lt h]
  · rw [if_neg h, if_neg (by omega), show g.val - 16 = g.val % 16 by omega]

end Sys2Proof.Machine

/-! PROOFS. Writes to the detector page and to the sign image (R81, R113, R123, R124, R126, R127, R131, R180). -/

namespace Sys2Proof.Machine

open Sys2Proof

/-! ### What a write to a detector sets -/

/-- The detector with a settings word written (R113, R127). -/
def Detector.withSetting (v : Detector) (offset : Nat) (w : Word) : Detector :=
  if offset = 2 then { v with onFilter := lowByte w, offFilter := highByte w }
  else if offset = 3 then { v with callMask := joinWords w (highWord v.callMask) }
  else if offset = 4 then { v with callMask := joinWords (lowWord v.callMask) w }
  else if offset = 5 then { v with prescale := if w = 0 then 1 else w }
  else { v with stuckOn := lowByte w, stuckOff := highByte w }

/-- A settings word leaves the detector's state. -/
theorem Detector.withSetting_state (v : Detector) (offset : Nat) (w : Word) : (v.withSetting offset w).state = v.state := by
  unfold Detector.withSetting; split_ifs <;> rfl

/-- A settings word leaves the detector's kind. -/
theorem Detector.withSetting_kind (v : Detector) (offset : Nat) (w : Word) : (v.withSetting offset w).kind = v.kind := by
  unfold Detector.withSetting; split_ifs <;> rfl

/-- Only the words of the call mask set it. -/
theorem Detector.withSetting_callMask (v : Detector) {offset : Nat} (w : Word) (h3 : offset ≠ 3) (h4 : offset ≠ 4) :
    (v.withSetting offset w).callMask = v.callMask := by
  unfold Detector.withSetting; split_ifs <;> rfl

/-- A faulted detector: in one of the two stuck faults. -/
theorem Detector.faulted_iff (v : Detector) : v.faulted = true ↔ v.state = .faultedOn ∨ v.state = .faultedOff := by
  simp [Detector.faulted]

/-- The groups a detector maps, bit by bit (R122). -/
theorem Detector.mapped_getLsbD (v : Detector) (i : Nat) :
    v.mapped.getLsbD i = true ↔ (v.kind = .presence ∨ v.kind = .pulse) ∧ v.callMask.getLsbD i = true := by
  unfold Detector.mapped
  split <;> simp_all

/-- A standing call: a configured group that a faulted detector maps (R123). -/
theorem standing_iff (s : State) (g : GroupNo) : s.standing.getLsbD g.val = true ↔ s.configured g = true ∧ ∃ d : DetectorNo,
    ((s.detector d).state = .faultedOn ∨ (s.detector d).state = .faultedOff) ∧
    ((s.detector d).kind = .presence ∨ (s.detector d).kind = .pulse) ∧ (s.detector d).callMask.getLsbD g.val = true := by
  simp only [standing_getLsbD, Bool.and_eq_true, List.any_eq_true, Detector.faulted_iff, Detector.mapped_getLsbD, List.mem_finRange,
    true_and]
  exact and_comm

/-- The groups added to a faulted detector's mask are called: the state with its call bits (R123). -/
theorem addStandingCalls_eq (d : DetectorNo) (old : Mask) (s : State) : ∃ calls : Mask,
    addStandingCalls d old s = { s with detectors := { s.detectors with calls := calls } } ∧
    ∀ g : GroupNo, calls.getLsbD g.val = true ↔ s.detectors.calls.getLsbD g.val = true ∨
      ((s.detector d).faulted = true ∧ (s.detector d).mapped.getLsbD g.val = true ∧ old.getLsbD g.val = false ∧
        s.configured g = true) := by
  unfold addStandingCalls
  by_cases hf : (s.detector d).faulted = true
  · refine ⟨(setCalls ((s.detector d).mapped &&& ~~~old) s).detectors.calls, if_pos hf, fun g => ?_⟩
    rw [setCalls_getLsbD]
    simp [hf, and_assoc]
  · exact ⟨_, if_neg hf, fun g => by simp [hf]⟩

/-- A settings word written: the selected detector's settings, and the calls of the groups it adds (R123, R127). -/
theorem writeSettings_eq (d : DetectorNo) (offset : Nat) (w : Word) (s : State) :
    let v := s.detector d
    let u := v.withSetting offset w
    ∃ calls : Mask, writeSettings d offset w s = { s with
        detectors := { s.detectors with detectors := s.detectors.detectors.set d u, calls := calls } } ∧
      ∀ g : GroupNo, calls.getLsbD g.val = true ↔ (s.detectors.calls.getLsbD g.val = true ∨
        ((v.state = .faultedOn ∨ v.state = .faultedOff) ∧ (v.kind = .presence ∨ v.kind = .pulse) ∧ s.configured g = true ∧
          u.callMask.getLsbD g.val = true ∧ v.callMask.getLsbD g.val = false)) := by
  intro v u
  by_cases h : offset = 3 ∨ offset = 4
  · have hw : writeSettings d offset w s = addStandingCalls d v.callMask (s.setDetector d u) := by
      rcases h with rfl | rfl <;> rfl
    obtain ⟨calls, he, hc⟩ := addStandingCalls_eq d v.callMask (s.setDetector d u)
    refine ⟨calls, hw.trans he, fun g => ?_⟩
    rw [hc g, State.setDetector_detector_self, Detector.faulted_iff, Detector.mapped_getLsbD, Detector.withSetting_state,
      Detector.withSetting_kind]
    exact or_congr_right ⟨fun ⟨hf, ⟨hk, hc⟩, hn, hg⟩ => ⟨hf, hk, hg, hc, hn⟩,
      fun ⟨hf, hk, hg, hc, hn⟩ => ⟨hf, ⟨hk, hc⟩, hn, hg⟩⟩
  · obtain ⟨h3, h4⟩ := not_or.1 h
    have hm : u.callMask = v.callMask := v.withSetting_callMask w h3 h4
    refine ⟨s.detectors.calls, ?_, fun g => ?_⟩
    · show writeSettings d offset w s = s.setDetector d (v.withSetting offset w)
      simp only [writeSettings, Detector.withSetting, h3, h4, if_false]
      split_ifs <;> rfl
    · rw [hm]; simp +contextual

/-- The kind's code after a write to the kind word: the data's low two bits where the low byte is enabled (R81, R126). -/
theorem detectorKindCode_merged (k : DetectorKind) (data : Word) (e : ByteEnables) :
    detectorKindCode (detectorKindOf ((mergeBytes (BitVec.ofNat 16 (detectorKindCode k)) data e).setWidth 2)) =
      if e.low then data.toNat % 4 else detectorKindCode k := by
  have hcode : ∀ c : BitVec 2, detectorKindCode (detectorKindOf c) = c.toNat := by decide
  have hk : detectorKindCode k < 4 := by cases k <;> decide
  have hold : (lowByte (BitVec.ofNat 16 (detectorKindCode k))).toNat = detectorKindCode k := by cases k <;> decide
  have hdata : (lowByte data).toNat = data.toNat % 256 := by simp [lowByte]
  rw [hcode, mergeBytes_eq_append, BitVec.toNat_setWidth, toNat_append_eq]
  by_cases hl : e.low = true
  · rw [if_pos hl, if_pos hl, hdata]; omega
  · rw [if_neg hl, if_neg hl, hold]; omega

/-- A kind is the one its code names (11.7). -/
theorem detectorKindOf_code (k : DetectorKind) : detectorKindOf (BitVec.ofNat 2 (detectorKindCode k)) = k := by cases k <;> rfl

/-- No two kinds have one code (11.7). -/
theorem detectorKindCode_inj {k l : DetectorKind} (h : detectorKindCode k = detectorKindCode l) : k = l := by
  rw [← detectorKindOf_code k, h, detectorKindOf_code]

end Sys2Proof.Machine

/-! PROOFS. The statements of the detector page, of the sign image and of the time-mark word (R81, R124, R126, R127, R131, R157, R180). -/

namespace Sys2Proof.Machine

open Sys2Proof

/-! ### Detectors -/

section

variable {s : State} {w : BusWrite} (h : Taken s (requiredLevel s.tap.levelMap .detectors) w)

include h

/-- A write to the detector page that passes its level check is the detector unit's to answer (R74). -/
theorem busWrite_detectors {offset : Nat} (ho : offset < 7 ∨ offset = 18 ∨ offset = 19) :
    busWrite 3 offset w s = settle 3 offset w.level (detectorPageWrite offset w (beginAccess s)) := by
  refine busWrite_taken rfl ?_ h
  rcases ho with ho | rfl | rfl
  · exact .inl (if_pos ho)
  · exact .inr rfl
  · exact .inr rfl

end

/-- The detector that a select in range names (R180). -/
theorem State.selected_eq {s : State} {d : DetectorNo} (h : s.detectors.select.toNat = d.val) : s.selected = d :=
  Fin.ext (by show s.detectors.select.toNat % 48 = d.val; omega)

/-- A write to the kind word sets the selected detector's kind (R126). -/
theorem detectorPageWrite_kind (w : BusWrite) (s : State) : detectorPageWrite 1 w s = accept (writeKind s.selected
    (detectorKindOf ((mergeBytes (BitVec.ofNat 16 (detectorKindCode (s.detector s.selected).kind)) w.data w.enables).setWidth 2)) s) :=
  rfl

/-- Settles O45: the select by its value after the merge, and the kind by its code. -/
theorem detectorSelectAndKindWrites : Obligations.DetectorSelectAndKindWrites := by
  intro s w h x
  have hselect : exec (.detectorSelectWrite w) s = .next (settle 3 0 w.level (if 47 < x.toNat then refuse .value (beginAccess s)
      else accept { beginAccess s with detectors := { s.detectors with select := x } })) :=
    congrArg Host.Outcome.next (busWrite_detectors h (.inl (by omega)))
  refine ⟨fun hx => ?_, fun hx => ?_, ?_⟩
  · rw [hselect, if_neg (by omega), settle_accept, beginAccess_eq]
  · rw [hselect, if_pos (by omega), settle_refuse, submitRefused_beginAccess]; rfl
  · intro d hd v code
    generalize hk : detectorKindOf ((mergeBytes (BitVec.ofNat 16 (detectorKindCode v.kind)) w.data w.enables).setWidth 2) = k
    have hcode : detectorKindCode k = code := hk ▸ detectorKindCode_merged v.kind w.data w.enables
    have hkind : exec (.detectorKindWrite w) s = .next (writeKind d k (beginAccess s)) := by
      have hd' : (beginAccess s).selected = d := State.selected_eq hd
      refine congrArg Host.Outcome.next ((busWrite_detectors h (.inl (by omega))).trans ?_)
      rw [detectorPageWrite_kind, settle_accept, hd', ← hk]; rfl
    refine ⟨fun hc => ?_, fun kind hc hne => ?_⟩
    · rw [hkind, detectorKindCode_inj (hcode.trans hc), writeKind]
      exact congrArg Host.Outcome.next (if_pos rfl)
    · obtain rfl := detectorKindCode_inj (hcode.trans hc)
      rw [hkind, writeKind]
      exact congrArg Host.Outcome.next (if_neg hne)

/-- The merged settings word as the statement's cases give it, setting by setting (R81, R113, R127). -/
theorem withSetting_merged (v : Detector) (setting : Fin 5) (w : BusWrite) :
    let byte := fun (old : Byte) (high : Bool) =>
      if high then (if w.enables.high then highByte w.data else old) else (if w.enables.low then lowByte w.data else old)
    let merged := fun (old : Word) => mergeBytes old w.data w.enables
    v.withSetting (2 + setting.val) (merged (settingsWord v (2 + setting.val))) =
      if setting = 0 then { v with onFilter := byte v.onFilter false, offFilter := byte v.offFilter true }
      else if setting = 1 then { v with callMask := highWord v.callMask ++ merged (lowWord v.callMask) }
      else if setting = 2 then { v with callMask := merged (highWord v.callMask) ++ lowWord v.callMask }
      else if setting = 3 then { v with prescale := if merged v.prescale = 0 then 1 else merged v.prescale }
      else { v with stuckOn := byte v.stuckOn false, stuckOff := byte v.stuckOff true } := by
  intro byte merged
  have hbytes : ∀ low high : Byte, mergeBytes (wordOf low.toNat high.toNat) w.data w.enables =
      (if w.enables.high then highByte w.data else high) ++ (if w.enables.low then lowByte w.data else low) := fun low high => by
    rw [mergeBytes_eq_append, wordOf_bytes, highByte_append, lowByte_append]
  have cases : setting = 0 ∨ setting = 1 ∨ setting = 2 ∨ setting = 3 ∨ setting = 4 := by revert setting; decide
  rcases cases with rfl | rfl | rfl | rfl | rfl
  case inl | inr.inr.inr.inr => simp only [Detector.withSetting, settingsWord, byte, merged]; simp [hbytes]
  all_goals simp [Detector.withSetting, settingsWord, joinWords, merged]

/-- Settles O46: the settings word written is the selected detector's, with the calls it adds. -/
theorem detectorSettingsWritesActAtOnce : Obligations.DetectorSettingsWritesActAtOnce := by
  intro s setting w d h hd v byte merged u
  obtain ⟨calls, hw, hcalls⟩ := writeSettings_eq d (2 + setting.val) (merged (settingsWord v (2 + setting.val))) (beginAccess s)
  have hu : v.withSetting (2 + setting.val) (merged (settingsWord v (2 + setting.val))) = u := withSetting_merged v setting w
  have hpage : detectorPageWrite (2 + setting.val) w (beginAccess s) =
      accept (writeSettings d (2 + setting.val) (merged (settingsWord v (2 + setting.val))) (beginAccess s)) := by
    have hd' : (beginAccess s).selected = d := State.selected_eq hd
    unfold detectorPageWrite
    rw [hd', if_neg (by omega), if_neg (by omega), if_pos (by omega)]; rfl
  refine ⟨calls, congrArg Host.Outcome.next ?_, fun g => ?_⟩
  · rw [busWrite_detectors h (.inl (by omega)), hpage, settle_accept, hw, ← hu]; rfl
  · rw [hcalls g, ← hu]; rfl

/-- The mask that a call-clear word writes names the groups of its word by the enabled bytes (R81, R124). -/
theorem callClearMask_getLsbD (word : Fin 2) (w : BusWrite) (g : GroupNo) :
    (if word = 0 then joinWords (takenData w) 0 else joinWords 0 (takenData w)).getLsbD g.val = true ↔
      g.val / 16 = word.val ∧ w.data.getLsbD (g.val % 16) = true ∧
        (if g.val % 16 < 8 then w.enables.low else w.enables.high) = true := by
  have hg := g.isLt
  have hdata := takenData_getLsbD w (Nat.mod_lt g.val (show 0 < 16 by omega))
  have cases : word = 0 ∨ word = 1 := by omega
  rcases cases with rfl | rfl
  · rw [if_pos rfl, joinWords_getLsbD]
    by_cases hw : g.val / 16 = 0
    · simp [hw, hdata]
    · simp [hw]
  · rw [if_neg (by decide), joinWords_getLsbD]
    by_cases hw : g.val / 16 = 0
    · simp [hw]
    · rw [if_neg hw, hdata]; simp [show g.val / 16 = 1 by omega]

/-- Settles O47: the named bits are cleared and the standing calls among them set again. -/
theorem callClearAliasKeepsStandingCalls : Obligations.CallClearAliasKeepsStandingCalls := by
  intro s word w h
  let m : Mask := if word = 0 then joinWords (takenData w) 0 else joinWords 0 (takenData w)
  have hw : busWrite 3 (18 + word.val) w s = clearCalls m (beginAccess s) := by
    rw [busWrite_detectors h (by omega)]
    have cases : word = 0 ∨ word = 1 := by omega
    rcases cases with rfl | rfl <;> rfl
  refine ⟨(clearCalls m (beginAccess s)).detectors.calls, congrArg Host.Outcome.next hw, ?_⟩
  intro g named standing
  have hm : m.getLsbD g.val = true ↔ named := callClearMask_getLsbD word w g
  have hstanding : (beginAccess s).standing.getLsbD g.val = true ↔ standing := standing_iff (beginAccess s) g
  rw [clearCalls_getLsbD]
  refine ⟨fun hn => ?_, fun hn => ?_⟩
  · rw [Bool.eq_false_iff.2 fun e => hn (hm.1 e)]
    simp [beginAccess]
  · rw [hm.2 hn]
    simpa using hstanding

/-! ### The sign image -/

/-- Settles O48: each channel of the image written is the enabled byte's data or as it was. -/
theorem signImageWriteSetsItsChannels : Obligations.SignImageWriteSetsItsChannels := by
  intro s word w h
  have hw : busWrite 6 word.val w s = writeImage word.val w.data w.enables (beginAccess s) :=
    busWrite_taken rfl (.inl (if_pos word.isLt)) h
  exact ⟨_, congrArg Host.Outcome.next hw, fun c => vector_get_ofFn _ c⟩

/-! ### The time-mark word -/

/-- A read of the time-mark word answers 0, passing its level check or not (R78, R79, R157). -/
theorem servedRead_timeMark (level : Level) (s : State) : servedRead 4 9 level s = answerRead 0 s := by
  rcases hl : levelPasses level (requiredLevel s.tap.levelMap (readArea 4)) with _ | _
  · exact (if_neg (by decide)).trans (if_pos hl)
  · exact (if_neg (by decide)).trans ((if_neg (by simp [hl])).trans rfl)

/-- Settles O43: the write is dropped, marks, or is refused by level; the read is of a command word. -/
theorem timeMarkWordMarksAtOnce : Obligations.TimeMarkWordMarksAtOnce := by
  intro s w hheld required
  have hserved : busWrite 4 9 w s = servedWrite 4 9 w (beginAccess s) := busWrite_served hheld rfl 9 w
  refine ⟨fun hw hl => ?_, fun hw => ?_, fun hw hl => ?_, fun e level memory => ?_⟩
  · exact congrArg Host.Outcome.next (busWrite_taken (s := s) rfl (.inr rfl) ⟨hheld, hw, hl⟩)
  · exact congrArg Host.Outcome.next (hserved.trans (servedWrite_dropped (.inl hw) _))
  · exact congrArg Host.Outcome.next (hserved.trans (servedWrite_level hw (.inr rfl) hl))
  · refine congrArg Host.Outcome.next ((partWay_zero _ s).trans ?_)
    exact (busRead_served hheld rfl 9 e level memory).trans (servedRead_timeMark level _)

end Sys2Proof.Machine

/-! PROOFS. Writes to the table store: staging words, commit requests and the service counter (R163, R164, R168 to R170, R174, R176). -/

namespace Sys2Proof.Machine

open Sys2Proof

/-- A write at a fixed level 0 carries level 0 (R75). -/
theorem Taken.level_eq_zero {s : State} {w : BusWrite} (h : Taken s 0 w) : w.level = 0 :=
  BitVec.eq_of_toNat_eq (Nat.le_zero.1 h.2.2)

/-! ### Staging words -/

/-- The answer to a staging write, refused by `reason` and left as it was (R164). -/
theorem writeStaging_refused {offset : Nat} {w : BusWrite} {s : State} {reason : Reason}
    (h : (s.mode.switch.level = false ∧ reason = .switchOpen) ∨
      (s.mode.switch.level = true ∧ s.store.busy = true ∧ reason = .busy) ∨
      (s.mode.switch.level = true ∧ s.store.busy = false ∧
        s.store.nv.lockFlags.getLsbD (sectionCode (placeSection (stagingPlace offset))) = true ∧ reason = .locked)) :
    writeStaging offset w s = refuse reason s := by
  rcases h with ⟨hs, rfl⟩ | ⟨hs, hb, rfl⟩ | ⟨hs, hb, hl, rfl⟩
  · simp [writeStaging, State.switchClosed, hs]
  · simp [writeStaging, State.switchClosed, hs, hb]
  · simp only [writeStaging, State.switchClosed, hs, hb, hl, Bool.true_eq_false, Bool.false_eq_true, if_false, if_true]

/-- With the switch closed, no commit in progress and the section not locked a staging write is accepted (R163, R164). -/
theorem writeStaging_accepted {offset : Nat} {s : State} (hs : s.mode.switch.level = true) (hb : s.store.busy = false)
    (hl : ¬s.store.nv.lockFlags.getLsbD (sectionCode (placeSection (stagingPlace offset))) = true) (w : BusWrite) :
    writeStaging offset w s = accept { s with store := { s.store with
      staging :=
        s.store.staging.setWord (stagingPlace offset) (mergeBytes (s.store.staging.word (stagingPlace offset)) w.data w.enables) } } := by
  simp only [writeStaging, State.switchClosed, hs, hb, hl, Bool.true_eq_false, Bool.false_eq_true, if_false]

/-- A staging offset is that of its page and word (11.10). -/
theorem stagingOffset_eq (k : Nat) : stagingOffset (8 + k / 256) (k % 256) = k := by
  unfold stagingOffset; omega

section

variable {s : State} {w : BusWrite} {k : Nat} (hk : k < 732) (h : Taken s 0 w)

include hk

/-- The staging words are stored ones of served pages, at the fixed level 0 (R71, R75). -/
theorem staging_layout : servedPage (8 + k / 256) = true ∧ wordClass (8 + k / 256) (k % 256) = .stored ∧
    writeLevel s (8 + k / 256) (k % 256) = 0 := by
  have hp : k / 256 = 0 ∨ k / 256 = 1 ∨ k / 256 = 2 := by omega
  refine ⟨?_, ?_, ?_⟩
  · rcases hp with e | e | e <;> rw [e] <;> rfl
  · have hw : wordClass (8 + k / 256) (k % 256) = if stagingOffset (8 + k / 256) (k % 256) < 732 then .stored else .unassigned := by
      rcases hp with e | e | e <;> rw [e] <;> rfl
    rw [hw, stagingOffset_eq, if_pos hk]
  · rcases hp with e | e | e <;> rw [e] <;> rfl

include h

/-- A staging write that passes its level check is the table store's to answer (R74). -/
theorem busWrite_staging : busWrite (8 + k / 256) (k % 256) w s =
    settle (8 + k / 256) (k % 256) w.level (writeStaging k w (beginAccess s)) := by
  obtain ⟨hp, hc, hl⟩ := staging_layout (s := s) hk
  rw [busWrite_taken hp (.inl hc) (by rwa [hl])]
  have howner : ownerWrite (8 + k / 256) (k % 256) w (beginAccess s) =
      writeStaging (stagingOffset (8 + k / 256) (k % 256)) w (beginAccess s) := by
    unfold ownerWrite
    rw [if_neg (by omega), if_neg (by omega), if_neg (by omega), if_neg (by omega)]
  rw [howner, stagingOffset_eq]

omit h in
/-- The record of a refused staging write names the staging area and the offset in it (R77). -/
theorem submitRefused_staging (reason : Reason) (l : Level) :
    submitRefused (8 + k / 256) (k % 256) reason l (beginAccess s) = { s with
      queue := s.queue.atAccess.submit .refused (lowWord s.clock) 8 (refusedDetail reason l k), bus := ⟨none, none⟩ } := by
  have hp : 8 ≤ 8 + k / 256 ∧ 8 + k / 256 ≤ 11 := by omega
  rw [submitRefused_beginAccess, areaOfPage, if_pos hp, areaOffset, if_pos hp, stagingOffset_eq]

end

/-- Settles O49: the refusals in their order, and the accepted write. -/
theorem stagingWritesAreDecidedInOrder : Obligations.StagingWritesAreDecidedInOrder := by
  intro s k w h hk c p locked refused
  have hexec : exec c s = .next (settle (8 + k.val / 256) (k.val % 256) w.level (writeStaging k.val w (beginAccess s))) :=
    congrArg Host.Outcome.next (busWrite_staging hk h)
  have hrefused : ∀ reason, writeStaging k.val w (beginAccess s) = refuse reason (beginAccess s) → refused reason := by
    intro reason hr
    show exec c s = _
    rw [hexec, hr, settle_refuse, submitRefused_staging hk, h.level_eq_zero]
  refine ⟨fun hs => ?_, fun hs hb => ?_, fun hs hb hl => ?_, fun hs hb hl => ?_, fun page offset hp ho => ?_⟩
  · exact hrefused _ (writeStaging_refused (.inl ⟨hs, rfl⟩))
  · exact hrefused _ (writeStaging_refused (.inr (.inl ⟨hs, hb, rfl⟩)))
  · exact hrefused _ (writeStaging_refused (.inr (.inr ⟨hs, hb, hl, rfl⟩)))
  · rw [hexec, writeStaging_accepted (s := beginAccess s) hs hb hl, settle_accept]; rfl
  · show Host.Outcome.next (busWrite page.val offset.val w s) = _
    rw [hp, ho]; rfl

/-! ### Commit requests -/

/-- The reason a commit request is refused at the outset, in its order (R168). -/
theorem commitRefusal_eq_some {s : State} {reason : Reason}
    (h : (s.mode.switch.level = false ∧ reason = .switchOpen) ∨
      (s.mode.switch.level = true ∧ s.store.busy = true ∧ reason = .busy) ∨
      (s.mode.switch.level = true ∧ s.store.busy = false ∧ commitMode s.mode.mode = false ∧ reason = .mode)) :
    commitRefusal s = some reason := by
  rcases h with ⟨hs, rfl⟩ | ⟨hs, hb, rfl⟩ | ⟨hs, hb, hm, rfl⟩
  · simp [commitRefusal, State.switchClosed, hs]
  · simp [commitRefusal, State.switchClosed, hs, hb]
  · simp [commitRefusal, State.switchClosed, hs, hb, hm]

/-- A commit request past the three checks (R168). -/
theorem commitRefusal_eq_none {s : State} (hs : s.mode.switch.level = true) (hb : s.store.busy = false)
    (hm : commitMode s.mode.mode = true) : commitRefusal s = none := by
  simp [commitRefusal, State.switchClosed, hs, hb, hm]

/-- The modes that take a commit request (R168). -/
theorem commitMode_iff (m : Mode) : commitMode m = true ↔ m = .startFlash ∨ m = .flash ∨ m = .dark := by
  simp [commitMode, or_assoc]

/-- A refused request sets the result with its reason (R168). -/
theorem requestCommit_refused {s : State} {reason : Reason} (h : commitRefusal s = some reason) :
    requestCommit s = refuse reason (setResult (.refused reason) s) := by rw [requestCommit, h]

/-- A request past the three checks is decided by the tables (R169, R170). -/
theorem requestCommit_decided {s : State} (h : commitRefusal s = none) : requestCommit s = accept (decideCommit s) := by
  rw [requestCommit, h]

/-- Staging that violates a condition is INVALID (R169). -/
theorem decideCommit_invalid {s : State} {code index : Nat} {sec : Section}
    (h : s.store.staging.firstViolation = some (code, sec, index)) :
    decideCommit s = submitCommit (.invalid code sec index) (setResult (.invalid code sec index) s) := by rw [decideCommit, h]

/-- Valid staging equal to the active tables is UNCHANGED (R170). -/
theorem decideCommit_unchanged {s : State} (h : s.store.staging.firstViolation = none) (he : stagingEqualsActive s = true) :
    decideCommit s = submitCommit .unchanged (setResult .unchanged s) := by rw [decideCommit, h]; exact if_pos he

/-- Other valid staging starts the commit (R170). -/
theorem decideCommit_starts {s : State} (h : s.store.staging.firstViolation = none) (he : stagingEqualsActive s = false) :
    decideCommit s = { s with store := { s.store with busy := true, result := .none } } := by
  rw [decideCommit, h]; exact if_neg (by simp [he])

/-- The detail of an INVALID result's record (R174, 11.8). -/
theorem commitDetail_invalid (code : Nat) (sec : Section) (index : Nat) :
    commitDetail (.invalid code sec index) = BitVec.ofNat 16 (2 + 256 * (code % 256)) := rfl

/-- Settles O52: the refusals in their order, then the decision by the tables. -/
theorem commitRequestIsDecidedInOrder : Obligations.CommitRequestIsDecidedInOrder := by
  intro s w h c m takes refused
  have hexec : exec c s = .next (settle 12 0 w.level (requestCommit (beginAccess s))) :=
    congrArg Host.Outcome.next (busWrite_taken rfl (.inr rfl) h)
  have hrefused : ∀ reason, commitRefusal (beginAccess s) = some reason → refused reason := by
    intro reason hr
    show exec c s = _
    rw [hexec, requestCommit_refused hr, settle_refuse, h.level_eq_zero]; rfl
  refine ⟨fun hs => ?_, fun hs hb => ?_, fun hs hb hm => ?_, fun hs hb hm => ?_⟩
  · exact hrefused _ (commitRefusal_eq_some (.inl ⟨hs, rfl⟩))
  · exact hrefused _ (commitRefusal_eq_some (.inr (.inl ⟨hs, hb, rfl⟩)))
  · exact hrefused _ (commitRefusal_eq_some (.inr (.inr ⟨hs, hb, Bool.eq_false_iff.2 fun e => hm ((commitMode_iff m).1 e), rfl⟩)))
  · have hdecided : exec c s = .next (decideCommit (beginAccess s)) := by
      rw [hexec, requestCommit_decided (commitRefusal_eq_none (s := beginAccess s) hs hb ((commitMode_iff m).2 hm)), settle_accept]
    rw [hdecided]
    refine ⟨fun code sec index hv => ?_, fun hv hvalid he => ?_, fun hv hd => ?_⟩
    · rw [decideCommit_invalid (s := beginAccess s) hv]; rfl
    · rw [decideCommit_unchanged (s := beginAccess s) hv (Bool.and_eq_true_iff.2 ⟨hvalid, decide_eq_true he⟩)]; rfl
    · have hne : stagingEqualsActive (beginAccess s) = false :=
        Bool.and_eq_false_iff.2 (hd.imp id fun hne => decide_eq_false hne)
      rw [decideCommit_starts (s := beginAccess s) hv hne]; rfl

/-! ### The service counter -/

/-- Settles O54: the sum is stored where it fits the counter and refused where it does not. -/
theorem serviceWriteAddsOrOverflows : Obligations.ServiceWriteAddsOrOverflows := by
  intro s w h n sum
  have hsum : (beginAccess s).store.nv.service + (takenData w).toNat = sum := by rw [takenData_toNat]; rfl
  have hexec : exec (.serviceWrite w) s = .next (settle 12 5 w.level (writeService w (beginAccess s))) :=
    congrArg Host.Outcome.next (busWrite_taken rfl (.inr rfl) h)
  refine ⟨fun hs => ?_, fun hs => ?_, rfl⟩
  · rw [hexec, writeService, hsum, if_pos (by exact hs), settle_accept]; rfl
  · rw [hexec, writeService, hsum, if_neg (by exact Nat.not_le.2 hs), settle_refuse]; rfl

end Sys2Proof.Machine

/-! PROOFS. The words of the served pages as their fields: each bit in its place, and 0 where no field stands (R178; 11.4 to 11.10). -/

namespace Sys2Proof.Machine

open Sys2Proof

/-! ### Bits -/

/-- A word with one bit, bit by bit. -/
theorem bitWord_getLsbD (b : Bool) {k : Nat} (hk : k < 16) (i : Nat) : (bitWord b k).getLsbD i = (b && decide (k = i)) := by
  have h : bitWord true k = BitVec.twoPow 16 k := BitVec.eq_of_toNat_eq (by simp [bitWord])
  cases b
  · exact BitVec.getLsbD_zero
  · rw [h, BitVec.getLsbD_twoPow]; simp [hk]

/-- A bit of a number (11.4 to 11.10 number them from 0). -/
theorem ofNat_getLsbD (n : Nat) {k : Nat} (hk : k < 16) : (BitVec.ofNat 16 n).getLsbD k = decide (n / 2 ^ k % 2 = 1) := by
  rw [BitVec.getLsbD_ofNat, Nat.testBit_eq_decide_div_mod_eq, decide_eq_true hk, Bool.true_and]

/-- A bit set where the number has none is added to it. -/
theorem or_bitWord {n k : Nat} (hk : k < 16) (hn : n / 2 ^ k % 2 = 0) (b : Bool) :
    BitVec.ofNat 16 n ||| bitWord b k = BitVec.ofNat 16 (n + 2 ^ k * b.toNat) := by
  cases b
  · simp [bitWord]
  · have hdisjoint : BitVec.ofNat 16 n &&& bitWord true k = 0 := by
      apply BitVec.eq_of_getLsbD_eq
      intro i hi
      rw [BitVec.getLsbD_and, bitWord_getLsbD true hk, ofNat_getLsbD n hi]
      by_cases e : k = i
      · subst e; simp [hn]
      · simp [e]
    rw [← BitVec.add_eq_or_of_and_eq_zero _ _ hdisjoint]
    simp [bitWord, BitVec.ofNat_add]

/-- A bit in place 0 as a number. -/
theorem bitWord_zero (b : Bool) : bitWord b 0 = BitVec.ofNat 16 b.toNat := by cases b <;> rfl

/-- A bit that is read back as a number. -/
theorem decide_eq_of_toNat {n : Nat} {b : Bool} (h : n = b.toNat) : decide (n = 1) = b := by
  subst h; cases b <;> rfl

/-- A word shows none of a mask's bits where each of them is clear in it. -/
theorem and_eq_zero_of_bits {v mask : Word} (h : ∀ i, i < 16 → mask.getLsbD i = true → v.getLsbD i = false) : v &&& mask = 0 := by
  apply BitVec.eq_of_getLsbD_eq
  intro i hi
  rw [BitVec.getLsbD_and]
  rcases hm : mask.getLsbD i with _ | _
  · simp
  · simp [h i hi hm]

/-- A value in the low bits of a word, 0 above it. -/
theorem setWidth_eq_append {n m : Nat} (x : BitVec m) : x.setWidth (n + m) = 0#n ++ x := by
  apply BitVec.eq_of_toNat_eq
  rw [toNat_append_eq, BitVec.toNat_setWidth_of_le (Nat.le_add_left m n)]
  simp

/-! ### The lamp view (11.4) -/

theorem groupStateCode_lt (st : GroupState) : groupStateCode st < 16 := by cases st <;> decide

theorem driveCode_lt (d : Drive) : driveCode d < 4 := by cases d <;> decide

/-- The group of a pair of words of the lamp view. -/
theorem groupNo_half (g : GroupNo) : groupNo (2 * g.val / 2) = g ∧ groupNo ((2 * g.val + 1) / 2) = g := by
  have hg := g.isLt
  constructor <;> refine Fin.ext ?_ <;> show _ % 32 = g.val <;> omega

/-- The even word of a group: its state, its two flags and the drives of its lines, and 0 elsewhere (11.4). -/
theorem lampWord_even (s : State) (g : GroupNo) :
    let v := lampWord s (2 * g.val)
    v.extractLsb' 0 4 = BitVec.ofNat 4 (groupStateCode (s.group g).state) ∧
    v.getLsbD 4 = (s.group g).heldStop ∧ v.getLsbD 5 = (s.group g).lateCancel ∧
    v.extractLsb' 8 2 = BitVec.ofNat 2 (driveCode (s.drive g .stop)) ∧
    v.extractLsb' 10 2 = BitVec.ofNat 2 (driveCode (s.drive g .clear)) ∧
    v.extractLsb' 12 2 = BitVec.ofNat 2 (driveCode (s.drive g .go)) ∧ v &&& 0xC0C0 = 0 := by
  have hstate := groupStateCode_lt (s.group g).state
  have hstop := driveCode_lt (s.drive g .stop)
  have hclear := driveCode_lt (s.drive g .clear)
  have hgo := driveCode_lt (s.drive g .go)
  have hheld := Bool.toNat_lt (s.group g).heldStop
  have hlate := Bool.toNat_lt (s.group g).lateCancel
  have hword : lampWord s (2 * g.val) = BitVec.ofNat 16 (groupStateCode (s.group g).state + 256 * driveCode (s.drive g .stop) +
      1024 * driveCode (s.drive g .clear) + 4096 * driveCode (s.drive g .go) + 2 ^ 4 * (s.group g).heldStop.toNat +
      2 ^ 5 * (s.group g).lateCancel.toNat) := by
    rw [lampWord, (groupNo_half g).1, if_pos (by omega), or_bitWord (by omega) (by omega), or_bitWord (by omega) (by omega)]
  intro v
  rw [show v = _ from hword]
  refine ⟨?_, ?_, ?_, ?_, ?_, ?_, and_eq_zero_of_bits fun i hi hm => ?_⟩
  case refine_2 => rw [ofNat_getLsbD _ (by omega)]; exact decide_eq_of_toNat (by omega)
  case refine_3 => rw [ofNat_getLsbD _ (by omega)]; exact decide_eq_of_toNat (by omega)
  case refine_7 =>
    have hi' : i = 6 ∨ i = 7 ∨ i = 14 ∨ i = 15 := by revert i; decide
    rw [ofNat_getLsbD _ hi, decide_eq_false_iff_not]
    rcases hi' with rfl | rfl | rfl | rfl <;> omega
  all_goals
    apply BitVec.eq_of_toNat_eq
    simp only [BitVec.extractLsb'_toNat, BitVec.toNat_ofNat, Nat.shiftRight_eq_div_pow]
    omega

/-- The odd word of a group: its raw and stretched senses, commanded-GO and the lamp-failed flags, and 0 elsewhere (11.4). -/
theorem lampWord_odd (s : State) (g : GroupNo) : let v := lampWord s (2 * g.val + 1)
    v &&& 0x8E88 = 0 ∧ ∀ (line : Line) (n : Nat), n = (if line = .stop then 0 else if line = .clear then 1 else 2) →
      v.getLsbD n = (senseLine s.lamps.raw line).getLsbD g.val ∧ v.getLsbD (n + 4) = (s.lamps.stretched line).getLsbD g.val ∧
      v.getLsbD 8 = s.lamps.commandedGo.getLsbD g.val ∧ v.getLsbD (n + 12) = (s.lamps.failed line).getLsbD g.val := by
  intro v
  have hbit : ∀ i, v.getLsbD i =
      (((((((((((s.lamps.raw.stop.getLsbD g.val && decide (0 = i)) || (s.lamps.raw.clear.getLsbD g.val && decide (1 = i))) ||
        (s.lamps.raw.go.getLsbD g.val && decide (2 = i))) || ((s.lamps.stretched .stop).getLsbD g.val && decide (4 = i))) ||
        ((s.lamps.stretched .clear).getLsbD g.val && decide (5 = i))) || ((s.lamps.stretched .go).getLsbD g.val && decide (6 = i))) ||
        (s.lamps.commandedGo.getLsbD g.val && decide (8 = i))) || (s.lamps.stopFailed.getLsbD g.val && decide (12 = i))) ||
        (s.lamps.clearFailed.getLsbD g.val && decide (13 = i))) || (s.lamps.goFailed.getLsbD g.val && decide (14 = i)))) := by
    intro i
    show (lampWord s (2 * g.val + 1)).getLsbD i = _
    rw [lampWord, (groupNo_half g).2, if_neg (by omega)]
    simp only [BitVec.getLsbD_or, bitWord_getLsbD _ (show (0 : Nat) < 16 by omega), bitWord_getLsbD _ (show 1 < 16 by omega),
      bitWord_getLsbD _ (show 2 < 16 by omega), bitWord_getLsbD _ (show 4 < 16 by omega), bitWord_getLsbD _ (show 5 < 16 by omega),
      bitWord_getLsbD _ (show 6 < 16 by omega), bitWord_getLsbD _ (show 8 < 16 by omega), bitWord_getLsbD _ (show 12 < 16 by omega),
      bitWord_getLsbD _ (show 13 < 16 by omega), bitWord_getLsbD _ (show 14 < 16 by omega)]
  refine ⟨and_eq_zero_of_bits fun i hi hm => ?_, fun line n hn => ?_⟩
  · have hi' : i = 3 ∨ i = 7 ∨ i = 9 ∨ i = 10 ∨ i = 11 ∨ i = 15 := by revert i; decide
    rw [hbit]
    rcases hi' with rfl | rfl | rfl | rfl | rfl | rfl <;> simp
  · subst hn
    simp only [hbit]
    cases line <;> simp [senseLine, LampMonitor.failed]

/-! ### The status page (11.5) -/

/-- The mode flags word: its six flags and the strap value (11.5). -/
theorem statusWord_flags (s : State) : statusWord s 163 = 0#4 ++ s.tap.strap ++ 0#3 ++ BitVec.ofBool (!s.store.nv.valid) ++
    BitVec.ofBool s.mode.switch.level ++ BitVec.ofBool s.mode.h1.level ++ BitVec.ofBool s.mode.h0.level ++
    BitVec.ofBool s.mode.normalPending := by
  have hstrap := s.tap.strap.isLt
  have h0 := Bool.toNat_lt s.mode.normalPending
  have h1 := Bool.toNat_lt s.mode.h0.level
  have h2 := Bool.toNat_lt s.mode.h1.level
  have h3 := Bool.toNat_lt s.mode.switch.level
  have h4 := Bool.toNat_lt (!s.store.nv.valid)
  show bitWord _ 0 ||| bitWord _ 1 ||| bitWord _ 2 ||| bitWord _ 3 ||| bitWord _ 4 ||| BitVec.ofNat 16 (256 * s.tap.strap.toNat) = _
  rw [BitVec.or_comm _ (BitVec.ofNat 16 _)]
  simp only [← BitVec.or_assoc]
  rw [or_bitWord (by omega) (by omega), or_bitWord (by omega) (by omega), or_bitWord (by omega) (by omega),
    or_bitWord (by omega) (by omega), or_bitWord (by omega) (by omega)]
  apply BitVec.eq_of_toNat_eq
  simp only [toNat_append_eq, BitVec.toNat_ofBool, BitVec.toNat_ofNat]
  omega

/-- The written flags word (11.5). -/
theorem statusWord_written (s : State) : statusWord s 174 = 0#13 ++ BitVec.ofBool s.page.word8.written ++
    BitVec.ofBool s.page.word1.written ++ BitVec.ofBool s.page.word0.written := by
  show bitWord s.page.word0.written 0 ||| bitWord s.page.word1.written 1 ||| bitWord s.page.word8.written 2 = _
  rcases s.page.word0.written with _ | _ <;> rcases s.page.word1.written with _ | _ <;>
    rcases s.page.word8.written with _ | _ <;> rfl

/-- The level map word (11.5). -/
theorem statusWord_levels (s : State) : statusWord s 176 = 0#2 ++ s.tap.levelMap := setWidth_eq_append (n := 2) s.tap.levelMap

/-- The missed count with reader B's enable (11.5). -/
theorem statusWord_missed (s : State) :
    statusWord s 180 = 0#7 ++ BitVec.ofBool s.queue.enabledB ++ BitVec.ofNat 8 s.queue.missed := by
  have hb := Bool.toNat_lt s.queue.enabledB
  show BitVec.ofNat 16 (s.queue.missed % 256 + 256 * (0 % 256)) ||| bitWord s.queue.enabledB 8 = _
  rw [or_bitWord (by omega) (by omega)]
  apply BitVec.eq_of_toNat_eq
  simp only [toNat_append_eq, BitVec.toNat_ofBool, BitVec.toNat_ofNat]
  omega

/-! ### The detector page, the lock word and the violation (11.7, 11.10) -/

theorem detectorStateCode_lt (st : DetectorState) : detectorStateCode st < 8 := by cases st <;> decide

/-- The condition word of a detector (11.7). -/
theorem conditionWord_eq (v : Detector) :
    wordOf ((if v.raw then 1 else 0) + (if v.level then 2 else 0) + 16 * detectorStateCode v.state) v.run =
      BitVec.ofNat 8 v.run ++ 0#1 ++ BitVec.ofNat 3 (detectorStateCode v.state) ++ 0#2 ++ BitVec.ofBool v.level ++ BitVec.ofBool v.raw := by
  have hs := detectorStateCode_lt v.state
  apply BitVec.eq_of_toNat_eq
  simp only [wordOf, toNat_append_eq, BitVec.toNat_ofBool, BitVec.toNat_ofNat]
  rcases v.raw with _ | _ <;> rcases v.level with _ | _ <;>
    simp only [Bool.toNat_false, Bool.toNat_true, if_true, Bool.false_eq_true, if_false] <;> omega

/-- The lock word (11.10). -/
theorem lockWord_eq (nv : NonVolatile) : lockWord nv = BitVec.ofBool nv.freeze ++ 0#8 ++ nv.lockFlags := by
  have hf := nv.lockFlags.isLt
  have hb := Bool.toNat_lt nv.freeze
  have h : nv.lockFlags.setWidth 16 = BitVec.ofNat 16 nv.lockFlags.toNat := by apply BitVec.eq_of_toNat_eq; simp
  rw [lockWord, h, or_bitWord (by omega) (by omega)]
  apply BitVec.eq_of_toNat_eq
  simp only [toNat_append_eq, BitVec.toNat_ofBool, BitVec.toNat_ofNat]
  omega

theorem sectionCode_lt (sec : Section) : sectionCode sec < 8 := by cases sec <;> decide

/-- The word of a violation: its index and its section (11.10). -/
theorem violationWord_invalid (code : Nat) (sec : Section) (index : Nat) : violationWord (.invalid code sec index) =
    0#1 ++ BitVec.ofNat 3 (sectionCode sec) ++ 0#2 ++ BitVec.ofNat 10 index := by
  have hs := sectionCode_lt sec
  apply BitVec.eq_of_toNat_eq
  simp only [violationWord, toNat_append_eq, BitVec.toNat_ofNat]
  omega

end Sys2Proof.Machine

/-! PROOFS. Reads of the served pages (R74, R78 to R80, R148, R150, R178, R179; 11.4 to 11.10). -/

namespace Sys2Proof.Machine

open Sys2Proof

/-! ### What an access notes in the queue -/

/-- The note of an access leaves what the readers have taken and what was missed. -/
theorem Queue.atAccess_rest (q : Queue) : q.atAccess.takenA = q.takenA ∧ q.atAccess.takenB = q.takenB ∧
    q.atAccess.enabledB = q.enabledB ∧ q.atAccess.missed = q.missed := by
  unfold Queue.atAccess; split <;> exact ⟨rfl, rfl, rfl, rfl⟩

@[simp] theorem Queue.atAccess_takenA (q : Queue) : q.atAccess.takenA = q.takenA := q.atAccess_rest.1
@[simp] theorem Queue.atAccess_takenB (q : Queue) : q.atAccess.takenB = q.takenB := q.atAccess_rest.2.1
@[simp] theorem Queue.atAccess_enabledB (q : Queue) : q.atAccess.enabledB = q.enabledB := q.atAccess_rest.2.2.1
@[simp] theorem Queue.atAccess_missed (q : Queue) : q.atAccess.missed = q.missed := q.atAccess_rest.2.2.2

/-- How many held records a reader has taken (R149). -/
def Queue.takenBy (q : Queue) : Reader → Nat
  | .a => q.takenA
  | .b => q.takenB

/-- A reader has a view: A always, B while it is enabled (R149). -/
def Queue.serves (q : Queue) (reader : Reader) : Prop := reader = .a ∨ q.enabledB = true

/-- A reader's view is what it has not taken (R149). -/
theorem Queue.view_of_serves {q : Queue} {reader : Reader} (h : q.serves reader) : q.view reader = q.held.drop (q.takenBy reader) := by
  cases reader
  · rfl
  · exact if_pos (h.resolve_left (by simp))

/-- A view past every held record, and B's while it is disabled, reads 0 (R150). -/
theorem portWord_empty {q : Queue} {reader : Reader} (h : q.held.length ≤ q.takenBy reader ∨ ¬q.serves reader) (k : Nat) :
    portWord q reader k = 0 := by
  have hv : q.view reader = [] := by
    by_cases hs : q.serves reader
    · rw [Queue.view_of_serves hs, List.drop_eq_nil_iff]
      exact h.resolve_right fun hn => hn hs
    · rcases reader with _ | _
      · exact absurd (.inl rfl) hs
      · exact if_neg fun hb => hs (.inr hb)
  rw [portWord, hv]

/-- A port word is of the reader's head record (R150). -/
theorem portWord_head {q : Queue} {reader : Reader} {r : Record} (hs : q.serves reader) (h : q.held[q.takenBy reader]? = some r)
    (k : Nat) : portWord q reader k = recordWord r k := by
  obtain ⟨hl, hr⟩ := List.getElem?_eq_some_iff.1 h
  rw [portWord, Queue.view_of_serves hs, List.drop_eq_getElem_cons hl, hr]

/-- The note of an access changes no port word. -/
theorem portWord_atAccess (q : Queue) (reader : Reader) (k : Nat) : portWord q.atAccess reader k = portWord q reader k := by
  have hv : q.atAccess.view reader = q.view reader := by cases reader <;> simp [Queue.view, Queue.viewA, Queue.viewB]
  rw [portWord, portWord, hv]

/-! ### The read of a served word -/

/-- A read of a word with no submission to follow it, or after another access of its moment, is taken as it comes (R148). -/
theorem partWay_last {later : Nat} {s : State} (h : later = 0 ∨ s.queue.moment = [] ∨ s.queue.accessed = true)
    (access : State → State) : partWay later access s = access s := by
  have hzero : (if s.held || s.queue.accessed then 0 else min later s.queue.moment.length) = 0 := by
    rcases h with h | h | h <;> simp [h]
  simp only [partWay, hzero]

/-- A read of an unassigned word, or above the read level, answers 0 (R78, R80). -/
theorem servedRead_zero {page offset : Nat} {level : Level} {s : State} (h : wordClass page offset = .unassigned ∨
    ¬level.toNat ≤ (requiredLevel s.tap.levelMap (readArea page)).toNat) : servedRead page offset level s = answerRead 0 s := by
  rcases h with h | h
  · exact if_pos h
  · have hl : levelPasses level (requiredLevel s.tap.levelMap (readArea page)) = false := by rw [levelPasses_eq]; simpa using h
    unfold servedRead
    rw [if_pos hl, ite_self]

/-- The access reads a word that is assigned: the value it answers and the latches it leaves (R74, R179). -/
structure WordRead (s : State) (page k : Nat) (v : Word) (l : Latches) : Prop where
  assigned : wordClass page k ≠ .unassigned
  value : servedValue (beginAccess s) page k = v
  latches : latchedBy (beginAccess s) page k = l

/-- A read of a word that passes the read level and takes no record (R74, R150, R179). -/
theorem WordRead.servedRead_eq {s : State} {page k : Nat} {v : Word} {l : Latches} (h : WordRead s page k v l) {level : Level}
    (hl : level.toNat ≤ (requiredLevel s.tap.levelMap (readArea page)).toNat) (ha : ¬(page = 4 ∧ k = 3))
    (hb : ¬(page = 5 ∧ k = 3)) : servedRead page k level (beginAccess s) = { s with
      latches := l
      queue := if showsQueue page k then { s.queue.atAccess with fresh := 0, dropped := [] } else s.queue.atAccess
      bus := ⟨some v, none⟩ } := by
  obtain ⟨hc, rfl, rfl⟩ := h
  have hp : levelPasses level (requiredLevel (beginAccess s).tap.levelMap (readArea page)) = true := by
    rw [levelPasses_eq]; exact decide_eq_true hl
  have hread : servedRead page k level (beginAccess s) = readWord page k (beginAccess s) :=
    (if_neg hc).trans (if_neg fun e => absurd (hp.symm.trans e) (by decide))
  rw [hread, readWord, if_neg ha, if_neg hb]
  split <;> rfl

/-- The words that show the queue are assigned ones (11.5, R150). -/
theorem showsQueue_iff (page : Fin 64) (k : Nat) : showsQueue page.val k = true ↔
    (page = 2 ∧ 177 ≤ k ∧ k ≤ 180) ∨ ((page = 4 ∨ page = 5) ∧ k < 3) := by
  have h2 : page.val = 2 ↔ page = 2 := (Fin.ext_iff (b := 2)).symm
  have h4 : page.val = 4 ↔ page = 4 := (Fin.ext_iff (b := 4)).symm
  have h5 : page.val = 5 ↔ page = 5 := (Fin.ext_iff (b := 5)).symm
  simp [showsQueue, h2, h4, h5, and_assoc]

theorem showsQueue_assigned {page k : Nat} (h : showsQueue page k = true) : wordClass page k ≠ .unassigned := by
  simp only [showsQueue, Bool.or_eq_true, Bool.and_eq_true, decide_eq_true_eq] at h
  rcases h with ⟨⟨rfl, -⟩, hk⟩ | ⟨rfl | rfl, hk⟩
  · simp [wordClass, show k < 181 by omega]
  · simp [wordClass, show k < 4 by omega]
  · simp [wordClass, show k < 4 by omega]

/-! ### The words page by page -/

/-- Where the command words lie (R79; 11.7, 11.8, 11.10). -/
theorem wordClass_command {page k : Nat} (h : wordClass page k = .command) :
    (page = 3 ∧ (k = 18 ∨ k = 19)) ∨ (page = 4 ∧ k = 9) ∨ (page = 12 ∧ (k = 0 ∨ k = 5)) := by
  simp only [wordClass, ite_eq_iff, reduceCtorEq, and_false, false_or, and_true, or_false] at h
  omega

/-- A command word reads 0 (R79). -/
theorem WordRead.command (s : State) {page k : Nat} (h : wordClass page k = .command) : WordRead s page k 0 s.latches := by
  rcases wordClass_command h with ⟨rfl, rfl | rfl⟩ | ⟨rfl, rfl⟩ | ⟨rfl, rfl | rfl⟩ <;> exact ⟨by decide, rfl, rfl⟩

/-- A word of the lamp view (11.4). -/
theorem WordRead.lamp (s : State) {k : Nat} (h : k < 64) : WordRead s 1 k (lampWord s k) s.latches :=
  ⟨by simp [wordClass, h], rfl, rfl⟩

/-- A group's words of the status page (11.5). -/
theorem WordRead.group (s : State) (g : GroupNo) :
    WordRead s 2 g.val (BitVec.ofNat 16 (s.group g).elapsed) s.latches ∧
    WordRead s 2 (32 + g.val) (BitVec.ofNat 16 (s.group g).age) s.latches ∧
    WordRead s 2 (64 + g.val) (BitVec.ofNat 16 (s.arbiter.waits.get g)) s.latches ∧
    WordRead s 2 (96 + g.val) (BitVec.ofNat 16 (s.group g).goTimer) s.latches ∧
    WordRead s 2 (128 + g.val) (BitVec.ofNat 8 (s.group g).clearingTimer ++ BitVec.ofNat 8 (s.group g).prepareTimer) s.latches := by
  have hg := g.isLt
  have read : ∀ k v, k < 160 → statusWord (beginAccess s) k = v → WordRead s 2 k v s.latches := fun k v hk hv => by
    refine ⟨by simp [wordClass, show k < 181 by omega], hv, ?_⟩
    unfold latchedBy
    rw [if_pos rfl]
    iterate 7 rw [if_neg (by omega)]
    rfl
  have hgroup : ∀ n, n % 32 = 0 → groupNo ((n + g.val) % 32) = g := fun n hn =>
    Fin.ext (by show (n + g.val) % 32 % 32 = g.val; omega)
  refine ⟨read _ _ (by omega) ?_, read _ _ (by omega) ?_, read _ _ (by omega) ?_, read _ _ (by omega) ?_, read _ _ (by omega) ?_⟩ <;>
    unfold statusWord
  · rw [← Nat.zero_add g.val, hgroup 0 rfl, if_pos (by omega)]; rfl
  · rw [hgroup 32 rfl, if_neg (by omega), if_pos (by omega)]; rfl
  · rw [hgroup 64 rfl, if_neg (by omega), if_neg (by omega), if_pos (by omega)]; rfl
  · rw [hgroup 96 rfl, if_neg (by omega), if_neg (by omega), if_neg (by omega), if_pos (by omega)]; rfl
  · rw [hgroup 128 rfl, if_neg (by omega), if_neg (by omega), if_neg (by omega), if_neg (by omega), if_pos (by omega),
      wordOf_eq_append]; rfl

/-- The page of a reader's port words (R150). -/
theorem WordRead.port (s : State) (reader : Reader) {k : Nat} (h : k < 3) :
    WordRead s (portPage reader) k (portWord s.queue.atAccess reader k) s.latches := by
  have hk : k < 4 := by omega
  cases reader
  · exact ⟨by simp [portPage, wordClass, hk], if_pos hk, rfl⟩
  · exact ⟨by simp [portPage, wordClass, hk], rfl, rfl⟩

/-- A word of the sign image: its two channels (11.9). -/
theorem WordRead.image (s : State) {k : Nat} {even odd : Fin 128} (he : even.val = 2 * k) (ho : odd.val = 2 * k + 1) :
    WordRead s 6 k (s.link.image.get odd ++ s.link.image.get even) s.latches := by
  refine ⟨by simp [wordClass, show k < 64 by omega], ?_, rfl⟩
  have hvalue : ∀ c : Fin 128, imageValue (beginAccess s) c.val = s.link.image.get c := fun c => dif_pos c.isLt
  show wordOf (imageValue (beginAccess s) (2 * k)).toNat (imageValue (beginAccess s) (2 * k + 1)).toNat = _
  rw [← ho, ← he, hvalue, hvalue, wordOf_bytes]

/-- A staging word (11.10). -/
theorem WordRead.staging (s : State) {n : Nat} (h : n < 732) :
    WordRead s (8 + n / 256) (n % 256) (s.store.staging.word (stagingPlace n)) s.latches := by
  obtain ⟨-, hc, -⟩ := staging_layout (s := s) h
  have hp : n / 256 = 0 ∨ n / 256 = 1 ∨ n / 256 = 2 := by omega
  refine ⟨by simp [hc], ?_, ?_⟩
  · have hv : servedValue (beginAccess s) (8 + n / 256) (n % 256) =
        s.store.staging.word (stagingPlace (stagingOffset (8 + n / 256) (n % 256))) := by
      rcases hp with e | e | e <;> rw [e] <;> rfl
    rw [hv, stagingOffset_eq]
  · rcases hp with e | e | e <;> rw [e] <;> rfl

/-! ### The row of a read -/

/-- A read of a served page can fall part-way through the submissions of a moment (R148). -/
theorem exec_lowWordRead_served {page : Fin 64} (hpage : servedPage page.val = true) (offset : Fin 256) (e : ByteEnables) (later : Nat)
    (level : Level) (memory : Word) (s : State) : exec (.lowWordRead page offset ⟨e, later⟩ level memory) s =
      .next (partWay later (busRead page.val offset.val e level memory) s) := by
  show Host.Outcome.next (partWay (if servedPage page.val then later else 0) _ s) = _
  rw [if_pos hpage]

/-- A read of any other page is taken after what was submitted before it (R72, R148). -/
theorem exec_lowWordRead_unserved {page : Fin 64} (hpage : servedPage page.val = false) (offset : Fin 256) (e : ByteEnables)
    (later : Nat) (level : Level) (memory : Word) (s : State) : exec (.lowWordRead page offset ⟨e, later⟩ level memory) s =
      .next (busRead page.val offset.val e level memory s) := by
  show Host.Outcome.next (partWay (if servedPage page.val then later else 0) _ s) = _
  rw [if_neg (by simp [hpage]), partWay_zero]

/-- A read of a passed word goes to memory, under a reset too (R71, R72, R82). -/
theorem busRead_passed {page offset : Nat} (h0 : ¬(page = 0 ∧ offset < 9)) (hp : servedPage page = false) (e : ByteEnables)
    (level : Level) (memory : Word) (s : State) :
    busRead page offset e level memory s = passRead (s.guardedAddress page offset) e memory s := by
  rw [busRead, guardedRead_passed h0 hp, ite_self]

/-- An empty view reads 0 at its port words (R150). -/
theorem WordRead.port_empty {s : State} {reader : Reader} {k : Nat} (hk : k < 3)
    (h : s.queue.held.length ≤ s.queue.takenBy reader ∨ ¬s.queue.serves reader) : WordRead s (portPage reader) k 0 s.latches := by
  rw [← portWord_empty h k, ← portWord_atAccess]
  exact .port s reader hk

/-- The port words 0 to 2 of a reader's head record (R150, 11.8). -/
theorem WordRead.port_head {s : State} {reader : Reader} {r : Record} (hs : s.queue.serves reader)
    (h : s.queue.held[s.queue.takenBy reader]? = some r) :
    WordRead s (portPage reader) 0 (BitVec.ofNat 8 r.missed ++ BitVec.ofNat 8 (eventKindCode r.kind)) s.latches ∧
    WordRead s (portPage reader) 1 r.stamp s.latches ∧ WordRead s (portPage reader) 2 (0#8 ++ r.subject) s.latches := by
  have read : ∀ {k v}, k < 3 → recordWord r k = v → WordRead s (portPage reader) k v s.latches := fun {k} {v} hk hv => by
    rw [← hv, ← portWord_head hs h, ← portWord_atAccess]
    exact .port s reader hk
  exact ⟨read (by omega) (wordOf_eq_append (eventKindCode r.kind) r.missed), read (by omega) rfl,
    read (by omega) (setWidth_eq_append (n := 8) r.subject)⟩

/-- A reader's port page, what it has taken, and whether it has a view, as the page number says (R149, R150). -/
theorem reader_of_page (q : Queue) {page : Fin 64} (h : page = 4 ∨ page = 5) : ∃ reader, page.val = portPage reader ∧
    (if page = 4 then q.takenA else q.takenB) = q.takenBy reader ∧ (q.serves reader ↔ page = 4 ∨ q.enabledB = true) := by
  rcases h with rfl | rfl
  · exact ⟨.a, rfl, rfl, by simp [Queue.serves]⟩
  · exact ⟨.b, rfl, rfl, by simp [Queue.serves]⟩

/-- Settles O38: each word's value and latches by page, and every access by the row that names it. -/
theorem servedReadsAnswerAndLatch : Obligations.ServedReadsAnswerAndLatch := by
  refine ⟨fun s page offset e level memory later hheld hpage ha hb hlater => ?_,
    fun u rs page offset e level memory hheld hq hfree hpage => ?_,
    fun s e later level memory => ⟨rfl, rfl, fun word offset ho => ?_, fun page offset hp h0 => ?_⟩⟩
  · intro c passes k l q nv shown noted answers pair high
    have hexec : exec (.lowWordRead page offset ⟨e, later⟩ level memory) s =
        .next (servedRead page.val offset.val level (beginAccess s)) := by
      rw [exec_lowWordRead_served hpage, partWay_last hlater, busRead_served hheld hpage]
    have hshows : showsQueue page.val k = true ↔ shown := showsQueue_iff page k
    have read : passes → ∀ {n v l'}, WordRead s page.val n v l' → k = n → answers v l' := by
      intro hl n v l' hr hk
      subst hk
      have hnoted : noted = if showsQueue page.val k then { q.atAccess with fresh := 0, dropped := [] } else q.atAccess :=
        if_congr (by rw [hshows]; exact and_iff_right hl) rfl rfl
      show exec _ s = _
      rw [hexec, hr.servedRead_eq hl (fun h => ha ⟨Fin.ext h.1, Fin.ext h.2⟩) (fun h => hb ⟨Fin.ext h.1, Fin.ext h.2⟩), hnoted]
    refine ⟨fun h => ?_, fun hl hc => read hl (.command s hc) rfl, ?_, ?_, ?_, ?_, ?_, ?_, ?_, ?_⟩
    · have hnoted : noted = q.atAccess := if_neg fun hn => h.elim (showsQueue_assigned (hshows.2 hn.2)) fun hl => hl hn.1
      show exec _ s = _
      rw [hexec, servedRead_zero (s := beginAccess s) h, hnoted]; rfl
    -- The lamp view (11.4).
    · rintro hl rfl g
      have hg := g.isLt
      exact ⟨fun hk => ⟨_, read hl (.lamp s (by omega)) hk, lampWord_even s g⟩,
        fun hk => ⟨_, read hl (.lamp s (by omega)) hk, lampWord_odd s g⟩⟩
    -- The status page (11.5): a word that is one value as it stands, and the words packed of several.
    · rintro hl rfl
      have word : ∀ n, wordClass 2 n ≠ .unassigned → k = n →
          answers (statusWord (beginAccess s) n) (latchedBy (beginAccess s) 2 n) := fun n hn => read hl ⟨hn, rfl, rfl⟩
      have plain : ∀ {n v}, statusWord (beginAccess s) n = v → wordClass 2 n ≠ .unassigned → latchedBy (beginAccess s) 2 n = l →
          k = n → answers v l := fun hv hn hlatch => read hl ⟨hn, hv, hlatch⟩
      refine ⟨fun g => ?_, ⟨word 160 (by decide), word 161 (by decide)⟩, ⟨word 168 (by decide), word 169 (by decide)⟩,
        ⟨word 186 (by decide), word 187 (by decide)⟩, ⟨word 188 (by decide), word 189 (by decide)⟩,
        ⟨word 190 (by decide), word 191 (by decide)⟩, ⟨word 192 (by decide), word 193 (by decide)⟩,
        ⟨word 194 (by decide), word 195 (by decide)⟩,
        plain (wordOf_eq_append (modeCode s.mode.mode) (causeCode s.mode.cause)) (by decide) rfl,
        plain (statusWord_flags (beginAccess s)) (by decide) rfl,
        word 164 (by decide), word 165 (by decide), word 166 (by decide), word 167 (by decide), word 170 (by decide),
        word 171 (by decide), word 172 (by decide), word 173 (by decide),
        plain (statusWord_written (beginAccess s)) (by decide) rfl, word 175 (by decide),
        plain (statusWord_levels (beginAccess s)) (by decide) rfl,
        plain (congrArg (fun h => BitVec.ofNat 16 (List.length h)) q.atAccess_held) (by decide) rfl,
        plain (congrArg (BitVec.ofNat 16) q.atAccess_takenA) (by decide) rfl,
        plain (congrArg (BitVec.ofNat 16) q.atAccess_takenB) (by decide) rfl,
        plain ?_ (by decide) rfl,
        plain (wordOf_eq_append (faultCauseWord nv.lastFault) (modeCode nv.lastFault.mode)) (by decide) rfl,
        plain (wordOf_bytes nv.lastFault.first nv.lastFault.second) (by decide) rfl⟩
      · obtain ⟨elapsed, age, wait, goTimer, timers⟩ := WordRead.group s g
        exact ⟨read hl elapsed, read hl age, read hl wait, read hl goTimer, read hl timers⟩
      · rw [statusWord_missed]
        show _ ++ BitVec.ofBool q.atAccess.enabledB ++ BitVec.ofNat 8 q.atAccess.missed = _
        rw [Queue.atAccess_enabledB, Queue.atAccess_missed]
    -- The port words (11.8).
    · intro hl hpage hk mine
      obtain ⟨reader, hreader, hmine, hserves⟩ := reader_of_page q hpage
      rw [show mine = _ from hmine, ← hserves]
      refine ⟨fun h => ?_, fun r hs hr => ?_⟩
      · have hempty : q.held.length ≤ q.takenBy reader ∨ ¬q.serves reader :=
          h.imp id fun ⟨h5, hb⟩ hs => by simpa [h5, hb] using hserves.1 hs
        exact read hl (hreader ▸ .port_empty hk hempty) rfl
      · obtain ⟨kind, stamp, subject⟩ := WordRead.port_head hs hr
        exact ⟨read hl (hreader ▸ kind), read hl (hreader ▸ stamp), read hl (hreader ▸ subject)⟩
    -- The control word (11.8).
    · rintro hl rfl
      exact read hl ⟨by decide, by show bitWord q.atAccess.enabledB 0 = _; rw [Queue.atAccess_enabledB]; rfl, rfl⟩
    -- The COMMIT page (11.10).
    · rintro hl rfl
      refine ⟨read hl ⟨by decide, lockWord_eq nv, rfl⟩, read hl ⟨by decide, rfl, rfl⟩, read hl ⟨by decide, ?_, rfl⟩,
        read hl ⟨by decide, ?_, rfl⟩⟩
      · show resultWord s.store.result = _
        rcases s.store.result with _ | reason | ⟨code, sec, index⟩ | _ | _
        · rfl
        · exact wordOf_eq_append 1 (reasonCode reason)
        · exact wordOf_eq_append 2 code
        · rfl
        · rfl
      · show violationWord s.store.result = _
        rcases s.store.result with _ | reason | ⟨code, sec, index⟩ | _ | _
        case invalid => exact violationWord_invalid code sec index
        all_goals rfl
    -- The detector page (11.7).
    · rintro hl rfl d hd
      obtain rfl : s.selected = d := State.selected_eq hd.symm
      intro v
      have word : ∀ n, wordClass 3 n ≠ .unassigned → k = n →
          answers (detectorWord (beginAccess s) n) (latchedBy (beginAccess s) 3 n) := fun n hn => read hl ⟨hn, rfl, rfl⟩
      have plain : ∀ {n x}, detectorWord (beginAccess s) n = x → wordClass 3 n ≠ .unassigned → latchedBy (beginAccess s) 3 n = l →
          k = n → answers x l := fun hx hn hlatch => read hl ⟨hn, hx, hlatch⟩
      exact ⟨word 0 (by decide), word 1 (by decide), plain (wordOf_bytes v.onFilter v.offFilter) (by decide) rfl, word 3 (by decide),
        word 4 (by decide), word 5 (by decide), plain (wordOf_bytes v.stuckOn v.stuckOff) (by decide) rfl,
        plain (conditionWord_eq v) (by decide) rfl, word 13 (by decide), ⟨word 9 (by decide), word 10 (by decide)⟩,
        ⟨word 11 (by decide), word 12 (by decide)⟩, ⟨word 14 (by decide), word 15 (by decide)⟩, word 16 (by decide),
        word 17 (by decide)⟩
    -- The sign image (11.9) and the staging words (11.10).
    · rintro hl rfl even odd he ho
      exact read hl (.image s he ho) rfl
    · intro hl n hn hp hk
      exact read hl (hp ▸ .staging s hn) hk
  · refine ⟨_, (exec_lowWordRead_served hpage offset e 0 level memory u).trans (congrArg _ (partWay_zero _ u)), ?_⟩
    rw [exec_lowWordRead_served hpage, partWay_stores hheld hq hfree]
  · rw [exec_lowWordRead_unserved rfl, ho]; rfl
  · have h0' : ¬(page.val = 0 ∧ offset.val < 9) := fun h => by have := h0 (Fin.ext h.1); omega
    rw [exec_lowWordRead_unserved hp, busRead_passed h0' hp]; rfl

end Sys2Proof.Machine

/-! PROOFS. One submission, in a moment of others or after it (R148, R154, R155), and the attention line (R158). -/

namespace Sys2Proof.Machine

open Sys2Proof

/-! ### Submissions taken one after another -/

/-- Taken one after another, submissions stand in the moment in their order, whether stored or dropped. -/
theorem Queue.moment_stores_content (rs : List Record) : ∀ {q : Queue}, QueueInv q →
    (rs.foldl Queue.store q).moment.map Record.content = q.moment.map Record.content ++ rs.map Record.content := by
  induction rs with
  | nil => intro q _; simp
  | cons r rs ih =>
    intro q h
    rw [List.foldl_cons, ih (h.store r), Queue.moment_store h]
    simp [Record.content]

/-- Submissions are stored behind the held records as far as there is room (R148, R154). -/
theorem Queue.stores_held (rs : List Record) : ∀ q : Queue,
    ∃ new, (rs.foldl Queue.store q).held = q.held ++ new ∧ new.length = min rs.length (128 - q.held.length) := by
  induction rs with
  | nil => intro q; exact ⟨[], by simp⟩
  | cons r rs ih =>
    intro q
    obtain ⟨new, hheld, hlen⟩ := ih (q.store r)
    rw [List.foldl_cons, hheld, List.length_cons]
    rcases q.store_cases r with ⟨hroom, e⟩ | ⟨hfull, e⟩ <;> rw [e] at hlen ⊢
    · refine ⟨{ r with missed := q.missed } :: new, by simp, ?_⟩
      simp only [List.length_append, List.length_cons, List.length_nil] at hlen ⊢
      omega
    · exact ⟨new, rfl, by dsimp only at hlen; omega⟩

/-! ### The queue before the newest of a moment -/

/-- What is taken back leaves the earlier submissions of the moment. -/
theorem Queue.moment_rewind {q : Queue} (h : QueueInv q) (n : Nat) : (q.rewind n).moment = q.moment.take (q.moment.length - n) := by
  have htaken := h.takenA
  have hlen := q.moment_length
  have hheld := q.rewind_held n
  have hrlen : (q.rewind n).held.length = min (q.held.length - q.fresh + (q.moment.length - n)) q.held.length := by
    rw [hheld, List.length_take]
  -- The stored part of the earlier submissions is the end of the held records.
  have hstored : (q.rewind n).held.drop ((q.rewind n).held.length - (q.rewind n).fresh) =
      (q.moment.take (q.moment.length - n)).take (min q.fresh q.held.length) := by
    have hstart : (q.rewind n).held.length - (q.rewind n).fresh = q.held.length - q.fresh := by rw [hrlen, q.rewind_fresh]; omega
    rw [hstart, hheld, List.drop_take, Nat.add_sub_cancel_left, List.take_take, Nat.min_comm, ← List.take_take, Nat.min_eq_left (by omega)]
    congr 1
    unfold Queue.moment
    rw [List.take_left' (by rw [List.length_drop]; omega)]
  have hdropped : (if (q.rewind n).held.length < Config.queueDepth then [] else (q.rewind n).dropped) = (q.rewind n).dropped := by
    split
    · rename_i hroom
      by_contra hne
      exact absurd ((h.rewind n).full (Ne.symm hne)) (Nat.ne_of_lt hroom)
    · rfl
  rw [Queue.moment, hstored, hdropped, Queue.rewind_dropped, List.take_append_drop]

/-! ### A submission and those it is taken before -/

/-- A record taken part-way through a moment is taken first of those taken back with it. -/
theorem Queue.partWay_store_eq {q : Queue} (h : QueueInv q) (n : Nat) (r : Record) :
    q.partWay n (·.store r) = (r :: q.late n).foldl Queue.store (q.rewind n) := by
  cases n with
  | zero =>
    have hlate : q.late 0 = [] := List.drop_length
    rw [Queue.rewind_zero h, hlate]
    rfl
  | succ n => rfl

/-- A submission is the newest of its moment that it need not follow taken back, itself taken, and they taken again (R148). -/
theorem Queue.submit_eq_stores {q : Queue} (h : QueueInv q) (k : EventKind) (stamp : Word) (x : Byte) (d : Word) :
    ∃ n, n ≤ q.moment.length ∧ (∀ y ∈ q.late n, mustFollow ⟨k, stamp, x, d, 0⟩ y = false) ∧
      q.submit k stamp x d =
        { (⟨k, stamp, x, d, 0⟩ :: q.late n).foldl Queue.store (q.rewind n) with choices := q.choices + 1 } := by
  have hplace := q.place_le ⟨k, stamp, x, d, 0⟩
  exact ⟨_, hplace.trans (q.passes_le _), q.passes_late _ hplace,
    congrArg (fun p : Queue => { p with choices := q.choices + 1 }) (Queue.partWay_store_eq h _ _)⟩

/-- In the moment a submission stands before those it was taken before, and all others stand as they did (R148). -/
theorem Queue.submit_moment {q : Queue} (h : QueueInv q) (k : EventKind) (stamp : Word) (x : Byte) (d : Word) :
    ∃ n, n ≤ q.moment.length ∧ (∀ y ∈ q.moment.drop (q.moment.length - n), mustFollow ⟨k, stamp, x, d, 0⟩ y = false) ∧
      (q.submit k stamp x d).moment.map Record.content = (q.moment.take (q.moment.length - n)).map Record.content ++
        (k, stamp, x, d) :: (q.moment.drop (q.moment.length - n)).map Record.content := by
  obtain ⟨n, hn, hpassed, heq⟩ := Queue.submit_eq_stores h k stamp x d
  refine ⟨n, hn, hpassed, ?_⟩
  rw [heq, ← Queue.moment_rewind h n]
  exact Queue.moment_stores_content (⟨k, stamp, x, d, 0⟩ :: q.late n) (h.rewind n)

/-- With the queue full a submission leaves it full, and what stood before the moment as it was (R148, R154). -/
theorem Queue.submit_full {q : Queue} (h : QueueInv q) (hfull : q.held.length = 128) (k : EventKind) (stamp : Word) (x : Byte) (d : Word) :
    (q.submit k stamp x d).held.length = 128 ∧ (q.submit k stamp x d).held.take (128 - q.fresh) = q.held.take (128 - q.fresh) := by
  have htaken := h.takenA
  have hlen := q.moment_length
  obtain ⟨n, hn, -, heq⟩ := Queue.submit_eq_stores h k stamp x d
  obtain ⟨new, hheld, hnew⟩ := Queue.stores_held (⟨k, stamp, x, d, 0⟩ :: q.late n) (q.rewind n)
  have hlate : (q.late n).length = n := by rw [Queue.late, List.length_drop]; omega
  have hrlen : (q.rewind n).held.length = min (128 - q.fresh + (q.moment.length - n)) 128 := by
    rw [q.rewind_held, List.length_take, hfull]
  rw [List.length_cons, hlate] at hnew
  rw [heq]
  dsimp only
  rw [hheld]
  refine ⟨by rw [List.length_append]; omega, ?_⟩
  rw [List.take_append_of_le_length (by omega), q.rewind_held, List.take_take, hfull, Nat.min_eq_left (by omega)]

/-- A submission that must follow the newest of its moment is taken as it comes (R148). -/
theorem Queue.submit_eq_store {q : Queue} {k : EventKind} {stamp : Word} {x : Byte} {d : Word}
    (h : ∀ y, q.moment.getLast? = some y → mustFollow ⟨k, stamp, x, d, 0⟩ y = true) :
    q.submit k stamp x d = { q.store ⟨k, stamp, x, d, 0⟩ with choices := q.choices + 1 } := by
  have hpasses : q.passes ⟨k, stamp, x, d, 0⟩ = 0 := by
    rw [← List.head?_reverse] at h
    unfold Queue.passes
    rcases hm : q.moment.reverse with _ | ⟨y, l⟩
    · rfl
    · simp [h y (by rw [hm]; rfl)]
  have hplace : q.place ⟨k, stamp, x, d, 0⟩ = 0 := Nat.le_zero.1 (hpasses ▸ q.place_le _)
  show ({ q.partWay (q.place ⟨k, stamp, x, d, 0⟩) _ with choices := q.choices + 1 } : Queue) = _
  rw [hplace]
  rfl

/-- A submission moves no reader's place in the queue. -/
theorem Queue.submit_taken (q : Queue) (k : EventKind) (stamp : Word) (x : Byte) (d : Word) :
    (q.submit k stamp x d).takenA = q.takenA ∧ (q.submit k stamp x d).takenB = q.takenB ∧
      (q.submit k stamp x d).enabledB = q.enabledB := by
  rw [Queue.submit_rest]; exact ⟨rfl, rfl, rfl⟩

/-- The lengths of the views are those of the queue past each reader's place (R149). -/
theorem Queue.view_lengths {p q : Queue} (hheld : p.held.length = q.held.length)
    (h : p.takenA = q.takenA ∧ p.takenB = q.takenB ∧ p.enabledB = q.enabledB) :
    p.viewA.length = q.viewA.length ∧ p.viewB.length = q.viewB.length := by
  obtain ⟨ha, hb, he⟩ := h
  refine ⟨by simp only [Queue.viewA, List.length_drop, hheld, ha], ?_⟩
  unfold Queue.viewB
  rw [he, hb]
  split
  · simp only [List.length_drop, hheld]
  · rfl

/-! ### What a submission must follow, and ATTN -/

theorem mustFollow_iff (later earlier : Record) : mustFollow later earlier = true ↔
    later.kind.block = earlier.kind.block ∨ (later.kind = .fault ∧ earlier.kind = .lampFail) ∨
    (later.kind = .mode ∧ later.detail.toNat % 16 = modeCode .toFlash ∧ later.detail.toNat / 256 = causeCode .refusals ∧
      earlier.kind = .refused) := by
  simp only [mustFollow, Bool.or_eq_true, Bool.and_eq_true, decide_eq_true_eq, or_assoc, and_assoc]

theorem State.attn_iff (s : State) : s.attn = true ↔
    s.held = false ∧ (s.queue.takenA < s.queue.held.length ∨ s.mode.mode = .faultFlash) := by
  have hview : (!s.queue.viewA.isEmpty) = true ↔ s.queue.takenA < s.queue.held.length := by
    rw [Bool.not_eq_true', ← Bool.not_eq_true, Queue.viewA, List.isEmpty_iff, List.drop_eq_nil_iff, Nat.not_le]
  rw [State.attn, Bool.and_eq_true, Bool.or_eq_true, hview, Bool.not_eq_true', decide_eq_true_eq]

/-- Settles O44: taken as it comes a submission is stored or counted; in a moment it is taken before those it need not follow. -/
theorem submissionStoresOrCounts : Obligations.SubmissionStoresOrCounts := by
  intro s kind subject detail q stamp r t
  refine ⟨?frame, fun hlast => ?tail, fun hroom => ?placed, fun hinv => ⟨?moment, fun hfull => ?full⟩, mustFollow_iff, s.attn_iff⟩
  case frame => exact congrArg (fun p : Queue => { s with queue := p }) (q.submit_rest kind stamp subject detail)
  case tail =>
    have ht : t.queue = { q.store ⟨kind, stamp, subject, detail, 0⟩ with choices := q.choices + 1 } := Queue.submit_eq_store hlast
    rw [ht]
    exact ⟨fun hroom => by rw [Queue.store_room hroom]; exact ⟨rfl, rfl⟩,
      fun hfull => by rw [Queue.store_full hfull]; exact ⟨rfl, rfl, rfl, rfl⟩⟩
  case placed =>
    obtain ⟨n, hn, hpassed, hcontents⟩ := Queue.submit_contents hroom kind stamp subject detail
    exact ⟨n, hn.trans (Nat.min_le_left ..), hpassed, hcontents⟩
  case moment => exact Queue.submit_moment hinv kind stamp subject detail
  case full =>
    obtain ⟨hlen, hstands⟩ := Queue.submit_full hinv hfull kind stamp subject detail
    exact ⟨hlen, hstands, Queue.view_lengths (hlen.trans hfull.symm) (q.submit_taken kind stamp subject detail)⟩

end Sys2Proof.Machine

/-! PROOFS. A lamp sample in the lamp monitor: the windows (R100 to R102), and the runs with their marks (R103 to R108). -/

namespace Sys2Proof.Machine

open Sys2Proof

/-! ### What the declarations leave of the monitor -/

/-- The lamp monitor stands, the running interval's mark aside, and its part of the event is due or taken as it was. -/
structure MonitorStands (s t : State) : Prop where
  lamps : t.lamps = { s.lamps with goMark := t.lamps.goMark }
  due : t.parts.lamps = s.parts.lamps

namespace MonitorStands

variable {s t u : State}

theorem refl (s : State) : MonitorStands s s := ⟨rfl, rfl⟩

theorem trans (h : MonitorStands s t) (k : MonitorStands t u) : MonitorStands s u :=
  ⟨k.lamps.trans (by rw [h.lamps]), k.due.trans h.due⟩

end MonitorStands

/-- Moves of groups leave the monitor. -/
theorem GroupFrame.monitor {s t : State} (h : GroupFrame s t) : MonitorStands s t := ⟨h.lamps, by rw [h.parts]⟩

/-- A declaration leaves the monitor: its entry is a change of mode and moves of groups (R64, R66). -/
theorem declareFault_monitor (c : FaultCause) (a b : Byte) (s : State) : MonitorStands s (declareFault c a b s) := by
  by_cases h : s.mode.mode = .faultFlash
  · rw [declareFault_latched c a b s h]; exact ⟨rfl, rfl⟩
  · rw [declareFault_entry c a b s h]
    have start : MonitorStands s (faultState c a b s) := ⟨rfl, rfl⟩
    exact start.trans (faultEntry_move c a b s).monitor

theorem declareAll_monitor (l : List (FaultCause × Byte × Byte)) (s : State) : MonitorStands s (declareAll l s) := by
  induction l generalizing s with
  | nil => exact .refl s
  | cons d l ih => exact (declareFault_monitor d.1 d.2.1 d.2.2 s).trans (ih _)

section

variable {s : State} (h : s.parts.lamps = true) (x : SenseSample)
include h

/-- After a sample the monitor is as its reading judges it, and the new interval is marked for the GO lines then on (R102 to R109). -/
theorem lampPart_lamps : (lampPart x s).lamps = { (judge (reading x s)).lamps with goMark := (lampPart x s).goLinesOn } := by
  rw [lampPart_eq h]
  have stands := (declareAll_monitor (declarations (reading x s)) (sampleTold x s)).lamps
  show ({ (declareAll _ _).lamps with goMark := _ } : LampMonitor) = _
  rw [stands]
  rfl

theorem lampPart_due : (lampPart x s).parts.lamps = false := by
  rw [lampPart_eq h]
  exact (declareAll_monitor (declarations (reading x s)) (sampleTold x s)).due

theorem lampPart_samples : (lampPart x s).lamps.samples = (x :: s.lamps.samples).take 6 := by rw [lampPart_lamps h]; rfl

theorem lampPart_goIntervals : (lampPart x s).lamps.goIntervals = (s.lamps.goMark :: s.lamps.goIntervals).take 6 := by
  rw [lampPart_lamps h]; rfl

theorem lampPart_stretched_iff (g : GroupNo) (line : Line) :
    ((lampPart x s).lamps.stretched line).getLsbD g.val = true ↔ Sensed x s g line := by
  rw [stretched_getLsbD, List.any_eq_true, lampPart_samples h]; rfl

theorem lampPart_commandedGo_iff (g : GroupNo) : (lampPart x s).lamps.commandedGo.getLsbD g.val = true ↔ Commanded s g := by
  rw [commandedGo_getLsbD, List.any_eq_true, lampPart_goIntervals h]; rfl

end

/-- Settles O24: nothing after the sample's entry into the windows changes them but the mark of the interval that begins. -/
theorem lampSampleEntersTheWindows : Obligations.LampSampleEntersTheWindows := by
  intro s x
  refine ⟨fun h => ?notDue, fun h => ⟨lampPart x s, rfl, lampPart_samples h x, lampPart_goIntervals h x, ?mark, lampPart_due h x,
    fun line g => ?stretched, fun g => ?commanded⟩⟩
  case notDue =>
    have none : lampPart x s = s := by rw [lampPart, h]; rfl
    exact congrArg Host.Outcome.next none
  case mark => exact congrArg LampMonitor.goMark (lampPart_lamps h x)
  case stretched => rw [stretched_getLsbD, List.any_eq_true]
  case commanded => rw [commandedGo_getLsbD, List.any_eq_true]

/-! ### The runs -/

/-- A run advances where its check finds its discrepancy, and is 0 otherwise (R103). -/
theorem nextCount_counts {found : Bool} {P : Prop} (hP : found = true ↔ P) (n : Nat) :
    (P → nextCount found n = min (n + 1) 255) ∧ (¬P → nextCount found n = 0) := by
  rw [← hP]
  exact ⟨fun h => by rw [h]; rfl, fun h => by rw [Bool.not_eq_true] at h; rw [h]; rfl⟩

/-- The mark of a run is set where the run acts, at PD or more, and falls with the run (R104). -/
theorem nextRun_mark_iff (found acts : Bool) (pd : Nat) (r : Run) : (nextRun found acts pd r).mark = true ↔
    found = true ∧ (r.mark = true ∨ acts = true ∧ pd ≤ (nextRun found acts pd r).count) := by
  simp [nextRun]

/-- A run that acts declares at the sample that newly sets its mark (R104). -/
theorem declares_iff_marks (found : Bool) (pd : Nat) (r : Run) :
    declares found pd r = true ↔ r.mark = false ∧ (nextRun found true pd r).mark = true := by
  rw [nextRun_mark_iff]
  cases hm : r.mark <;> simp [declares, nextRun, hm]

/-- One run of a sample, with what its check finds and whether it acts said in words. -/
theorem nextRun_follows {found acts declared : Bool} {P A : Prop} (hP : found = true ↔ P) (hA : acts = true ↔ A) {pd : Nat} {r now : Run}
    (hnow : now = nextRun found acts pd r) (hd : A → declared = declares found pd r) :
    ((P → now.count = min (r.count + 1) 255) ∧ (¬P → now.count = 0)) ∧
    (now.mark = true ↔ P ∧ (r.mark = true ∨ A ∧ pd ≤ now.count)) ∧ (A → (declared = true ↔ r.mark = false ∧ now.mark = true)) := by
  subst hnow
  refine ⟨nextCount_counts hP r.count, ?_, fun ha => ?_⟩
  · rw [nextRun_mark_iff, hP, hA]
  · rw [hd ha, hA.2 ha, declares_iff_marks]

section

variable {s : State} (h : s.parts.lamps = true) (x : SenseSample) (j i g : GroupNo)

/-- The CONFLICT check of a pair finds its discrepancy (R105). -/
theorem conflictFound_iff : conflictFound (reading x s) j i = true ↔
    j < i ∧ Proved s j ∧ Proved s i ∧ s.active.conflictBit j i = true ∧ Sensed x s j .go ∧ Sensed x s i .go := by
  have hb : (reading x s).active.conflictBit j i = s.active.conflictBit j i := rfl
  simp only [conflictFound, conflictApplies, hb, Bool.and_eq_true, proved_iff, stretchedOn_iff, decide_eq_true_iff, and_assoc]

/-- The UNCOMMANDED_GO check finds its discrepancy (R106). -/
theorem uncommandedFound_iff : uncommandedFound (reading x s) g = true ↔ Proved s g ∧ Sensed x s g .go ∧ ¬Commanded s g := by
  rw [uncommandedFound, Bool.and_eq_true, Bool.and_eq_true, Bool.not_eq_true', ← Bool.not_eq_true, proved_iff, stretchedOn_iff,
    commandedGo_iff, and_assoc]

include h

theorem lampPart_conflictRun : ((lampPart x s).lamps.conflictRuns.get j).get i =
    nextRun (conflictFound (reading x s) j i) true s.active.timing.provingDelay.toNat ((s.lamps.conflictRuns.get j).get i) := by
  simp only [lampPart_lamps h, judge, vector_get_ofFn]; rfl

theorem lampPart_uncommandedRun : (lampPart x s).lamps.uncommandedRuns.get g =
    nextRun (uncommandedFound (reading x s) g) true s.active.timing.provingDelay.toNat (s.lamps.uncommandedRuns.get g) := by
  simp only [lampPart_lamps h, judge, vector_get_ofFn]; rfl

theorem lampPart_stopOutRun : (lampPart x s).lamps.stopOutRuns.get g =
    nextRun (lampOutFound (reading x s) g .stop) (!(s.record g).redundant) s.active.timing.provingDelay.toNat
      (s.lamps.stopOutRuns.get g) := by
  simp only [lampPart_lamps h, judge, vector_get_ofFn]; rfl

theorem lampPart_clearOutRun : (lampPart x s).lamps.clearOutRuns.get g =
    nextCount (lampOutFound (reading x s) g .clear) (s.lamps.clearOutRuns.get g) := by
  simp only [lampPart_lamps h, judge, vector_get_ofFn]; rfl

theorem lampPart_goOutRun : (lampPart x s).lamps.goOutRuns.get g =
    nextCount (lampOutFound (reading x s) g .go) (s.lamps.goOutRuns.get g) := by
  simp only [lampPart_lamps h, judge, vector_get_ofFn]; rfl

end

/-- Settles O25: each run of the judged reading, with its check said by the windows that the sample leaves. -/
theorem lampRunsCountTheDiscrepancies : Obligations.LampRunsCountTheDiscrepancies := by
  intro s x h
  refine ⟨lampPart x s, rfl, ?_⟩
  have sensed := lampPart_stretched_iff h x
  have lampOut := fun g line => (lampOutFound_iff x s g line).trans (by rw [← sensed g line])
  refine ⟨fun j i => nextRun_follows ?conflict (by simp) (lampPart_conflictRun h x j i) fun _ => rfl,
    fun g => ⟨nextRun_follows ?uncommanded (by simp) (lampPart_uncommandedRun h x g) fun _ => rfl,
      nextRun_follows (lampOut g .stop) (by simp) (lampPart_stopOutRun h x g) fun hacts => ?redOut, ?clear, ?go⟩⟩
  case conflict => rw [conflictFound_iff, ← sensed j, ← sensed i]; rfl
  case uncommanded =>
    rw [uncommandedFound_iff, ← sensed g, ← lampPart_commandedGo_iff h x g, Bool.not_eq_true]; rfl
  case redOut =>
    have acts : ((reading x s).record g).redundant = false := hacts
    rw [redOutDeclared, acts]; rfl
  case clear => rw [lampPart_clearOutRun h]; exact nextCount_counts (lampOut g .clear) _
  case go => rw [lampPart_goOutRun h]; exact nextCount_counts (lampOut g .go) _

end Sys2Proof.Machine

/-! PROOFS. Submissions to a queue that may fill: what stands in it, and which records the full queue cannot drop (R148, R154). -/

namespace Sys2Proof.Machine

open Sys2Proof

/-! ### Submissions with room or without -/

/-- Records taken one after another stand at the tail as far as the queue reaches. -/
theorem Queue.stores_contents_take (rs : List Record) (q : Queue) :
    (rs.foldl Queue.store q).contents = (q.contents ++ rs.map Record.content).take (max 128 q.held.length) := by
  have hlen : q.contents.length = q.held.length := by simp [Queue.contents]
  induction rs generalizing q with
  | nil => rw [List.map_nil, List.append_nil, List.take_of_length_le (by omega)]; rfl
  | cons r rs ih =>
    rw [List.foldl_cons, ih (q.store r) (by simp [Queue.contents])]
    rcases q.store_cases r with ⟨hroom, e⟩ | ⟨hfull, e⟩ <;> rw [e]
    · have hmax : max 128 (q.held.length + 1) = max 128 q.held.length := by omega
      simp [Queue.contents, Record.content, hmax]
    · have hmax : max 128 q.held.length = q.contents.length := by omega
      show (q.contents ++ _).take (max 128 q.held.length) = _
      rw [hmax, List.take_left, List.take_left]

/-- How many records were held before the moment does not change as records are taken. -/
theorem Queue.stores_before (rs : List Record) (q : Queue) :
    (rs.foldl Queue.store q).held.length - (rs.foldl Queue.store q).fresh = q.held.length - q.fresh := by
  induction rs generalizing q with
  | nil => rfl
  | cons r rs ih =>
    rw [List.foldl_cons, ih]
    rcases q.store_cases r with ⟨-, e⟩ | ⟨-, e⟩ <;> rw [e]
    simp

/-- How many records were held before the moment does not change at a submission. -/
theorem Queue.submit_before (q : Queue) (k : EventKind) (stamp : Word) (x : Byte) (d : Word) :
    (q.submit k stamp x d).held.length - (q.submit k stamp x d).fresh = q.held.length - q.fresh := by
  show (q.partWay (q.place ⟨k, stamp, x, d, 0⟩) _).held.length - (q.partWay (q.place ⟨k, stamp, x, d, 0⟩) _).fresh = _
  rcases q.place ⟨k, stamp, x, d, 0⟩ with _ | n
  · exact Queue.stores_before [_] q
  · refine (Queue.stores_before (⟨k, stamp, x, d, 0⟩ :: q.late (n + 1)) (q.rewind (n + 1))).trans ?_
    rw [Queue.rewind_held, Queue.rewind_fresh, List.length_take]
    omega

/-- No more records are held than the queue takes, or none of them is of the moment. -/
def Queue.Bounded (q : Queue) : Prop := q.held.length ≤ 128 ∨ q.fresh = 0

/-- A moment's submissions from some place on: the last held ones, and the dropped ones behind them. -/
theorem Queue.moment_drop (q : Queue) (k : Nat) : q.moment.drop k = q.held.drop (q.held.length - q.fresh + k) ++
    (if q.held.length < 128 then [] else q.dropped).drop (k - (q.held.drop (q.held.length - q.fresh)).length) := by
  rw [Queue.moment, List.drop_append, List.drop_drop]; rfl

/-- Taking back the newest of a moment takes back the last held records, and the dropped ones behind them. -/
theorem Queue.rewind_late (q : Queue) {m : Nat} (hm : m ≤ q.moment.length) :
    ∃ n tail, n ≤ min q.fresh q.held.length ∧ (q.held.length < 128 → tail = []) ∧
      (q.rewind m).held = q.held.take (q.held.length - n) ∧ q.late m = q.held.drop (q.held.length - n) ++ tail := by
  have hlen := q.moment_length
  have hcut : q.held.drop (q.held.length - q.fresh + (q.moment.length - m)) =
      q.held.drop (q.held.length - (m - if q.held.length < 128 then 0 else q.dropped.length)) := by
    rw [List.drop_eq_drop_iff]; omega
  have hlate := (q.moment_drop (q.moment.length - m)).trans (by rw [hcut])
  refine ⟨_, _, by omega, fun hroom => ?_, ?_, hlate⟩
  · rw [if_pos hroom, List.drop_nil]
  · rw [Queue.rewind_held, List.take_eq_take_iff]; omega

/-- A submission stands before at most the newest of its moment, each of which it need not follow, and the queue is cut where it is full
(R148, R154). -/
theorem Queue.submit_contents_take {q : Queue} (h : q.Bounded) (c : Said) : ∃ n, n ≤ min q.fresh q.held.length ∧
    (∀ y ∈ q.held.drop (q.held.length - n), mustFollow (saidRecord c) y = false) ∧
    (q.submit c.1 c.2.1 c.2.2.1 c.2.2.2).contents = (q.contents.take (q.held.length - n) ++ c :: q.contents.drop (q.held.length - n)).take
      (max 128 q.held.length) := by
  have hplace := q.place_le (saidRecord c)
  have hpassed := q.passes_late (saidRecord c) hplace
  have hlen : q.contents.length = q.held.length := by simp [Queue.contents]
  show ∃ n, _ ∧ _ ∧ (q.partWay (q.place (saidRecord c)) (·.store (saidRecord c))).contents = _
  rcases hm : q.place (saidRecord c) with _ | m
  · refine ⟨0, Nat.zero_le _, by simp, (Queue.stores_contents_take [saidRecord c] q).trans ?_⟩
    rw [Nat.sub_zero, ← hlen, List.take_length, List.drop_length]; rfl
  · obtain ⟨n, tail, hn, htail, hheld, hlate⟩ := q.rewind_late (hm ▸ hplace.trans (q.passes_le _))
    refine ⟨n, hn, fun y hy => hpassed y (by rw [hm, hlate]; exact List.mem_append_left _ hy),
      (Queue.stores_contents_take (saidRecord c :: q.late (m + 1)) (q.rewind (m + 1))).trans ?_⟩
    have hcontents : (q.rewind (m + 1)).contents = q.contents.take (q.held.length - n) := by
      rw [Queue.contents, hheld, List.map_take]; rfl
    rw [hcontents, hheld, hlate, List.map_cons, List.map_append, List.map_drop, List.length_take, ← List.cons_append,
      ← List.append_assoc]
    have hbound : max 128 (min (q.held.length - n) q.held.length) = max 128 q.held.length := by
      rcases h with h | h <;> omega
    rw [hbound]
    by_cases hroom : q.held.length < 128
    · rw [htail hroom, List.map_nil, List.append_nil]; rfl
    · refine List.take_append_of_le_length ?_
      simp only [List.length_append, List.length_cons, List.length_take, List.length_drop, List.length_map, hlen]
      omega

theorem Queue.Bounded.submit {q : Queue} (h : q.Bounded) (c : Said) : (q.submit c.1 c.2.1 c.2.2.1 c.2.2.2).Bounded := by
  obtain ⟨n, hn, -, hcontents⟩ := Queue.submit_contents_take h c
  have hbefore := q.submit_before c.1 c.2.1 c.2.2.1 c.2.2.2
  have hlen := congrArg List.length hcontents
  simp only [Queue.contents, List.length_map, List.length_append, List.length_cons, List.length_take, List.length_drop] at hlen
  unfold Queue.Bounded at h ⊢
  omega

/-! ### A record at its place -/

section

variable {α : Type} (front back : List α) (c : α) {k : Nat}

/-- A record placed in the first part of a list. -/
theorem insert_in_front (h : k ≤ front.length) :
    (front ++ back).take k ++ c :: (front ++ back).drop k = (front.take k ++ c :: front.drop k) ++ back := by
  rw [List.take_append_of_le_length h, List.drop_append_of_le_length h, ← List.cons_append, ← List.append_assoc]

/-- A record placed behind the first part of a list. -/
theorem insert_behind_front (h : front.length ≤ k) : (front ++ back).take k ++ c :: (front ++ back).drop k =
    front ++ (back.take (k - front.length) ++ c :: back.drop (k - front.length)) := by
  rw [List.take_append, List.take_of_length_le h, List.drop_append, List.drop_eq_nil_of_le h, List.nil_append, List.append_assoc]

/-- A cut behind the first part of a list. -/
theorem take_behind_front (h : front.length ≤ k) : (front ++ back).take k = front ++ back.take (k - front.length) := by
  rw [List.take_append, List.take_of_length_le h]

end

/-! ### The records held before the moment -/

/-- A submission, with room or without, leaves the records that no submission of the moment can be taken before. -/
theorem Queue.StartsWith.submit_bounded {base rest : List Said} {q : Queue} (hq : q.StartsWith base rest) (h : q.Bounded) (c : Said) :
    ∃ rest', (q.submit c.1 c.2.1 c.2.2.1 c.2.2.2).StartsWith base rest' ∧ ∀ d ∈ rest', d ∈ c :: rest := by
  obtain ⟨n, hn, -, hcontents⟩ := Queue.submit_contents_take h c
  obtain ⟨hbase, hfresh⟩ := hq
  have hlen : base.length ≤ q.held.length - n := by omega
  rw [hbase, insert_behind_front _ _ _ hlen, take_behind_front _ _ (by omega)] at hcontents
  refine ⟨_, ⟨hcontents, (q.submit_before ..).symm ▸ hfresh⟩, fun d hd => ?_⟩
  rcases List.mem_append.1 (List.mem_of_mem_take hd) with hd | hd
  · exact List.mem_cons_of_mem _ (List.mem_of_mem_take hd)
  · rcases List.mem_cons.1 hd with rfl | hd
    · exact List.mem_cons_self
    · exact List.mem_cons_of_mem _ (List.mem_of_mem_drop hd)

theorem Queue.StartsWith.submits_bounded (l : List Said) {base rest : List Said} {q : Queue} (hq : q.StartsWith base rest)
    (h : q.Bounded) : ∃ rest', (q.submits l).StartsWith base rest' ∧ ∀ d ∈ rest', d ∈ l ++ rest := by
  induction l generalizing q rest with
  | nil => exact ⟨rest, hq, fun _ => id⟩
  | cons c l ih =>
    obtain ⟨mid, hmid, hmem⟩ := hq.submit_bounded h c
    obtain ⟨rest', hrest, hmem'⟩ := ih hmid (h.submit c)
    refine ⟨rest', hrest, fun d hd => ?_⟩
    rcases List.mem_append.1 (hmem' d hd) with hd | hd
    · simp [hd]
    · have := hmem d hd
      simp only [List.cons_append, List.mem_cons, List.mem_append] at this ⊢
      tauto

/-- Where no record held can be passed, all of them stand, and only submissions stand behind them. -/
theorem Queue.submits_behind (l : List Said) {q : Queue} (hf : q.fresh = 0) :
    ∃ new, (q.submits l).contents = q.contents ++ new ∧ ∀ d ∈ new, d ∈ l := by
  have start : q.StartsWith q.contents [] := ⟨by simp, by simp [Queue.contents, hf]⟩
  obtain ⟨new, hnew, hmem⟩ := start.submits_bounded l (.inr hf)
  exact ⟨new, hnew.contents, by simpa using hmem⟩

/-! ### LAMP_FAIL records before a FAULT record -/

/-- All LAMP_FAIL records held are among the first ones, `front`, and a record of the mode controller stands behind these: whatever the mode
controller submits now stands behind it too. -/
structure Queue.LampsBefore (front : List Said) (q : Queue) : Prop where
  depth : q.held.length ≤ 128
  contents : ∃ fault back, q.contents = front ++ fault :: back ∧ fault.1.block = .modeController ∧ ∀ c ∈ back, c.1.block ≠ .lampMonitor

theorem Queue.LampsBefore.ofBlock {front : List Said} {q : Queue} (h : q.LampsBefore front) :
    q.ofBlock .lampMonitor = front.filter fun c => c.1.block = .lampMonitor := by
  obtain ⟨fault, back, hcontents, hfault, hback⟩ := h.contents
  have none : back.filter (fun c => decide (c.1.block = .lampMonitor)) = [] :=
    List.filter_eq_nil_iff.2 fun c hc => by simpa using hback c hc
  simp [Queue.ofBlock, hcontents, hfault, none]

/-- A FAULT record stands behind every LAMP_FAIL record held (R110). -/
theorem Queue.lampsBefore_of_fault {q : Queue} (h : q.held.length < 128) {fault : Said} (hf : fault.1 = .fault) :
    ∃ front, (q.submit fault.1 fault.2.1 fault.2.2.1 fault.2.2.2).LampsBefore front ∧ front.length ≤ q.held.length ∧
      front.filter (fun c => c.1.block = .lampMonitor) = q.ofBlock .lampMonitor := by
  obtain ⟨n, -, hpassed, hcontents⟩ := Queue.submit_contents h fault.1 fault.2.1 fault.2.2.1 fault.2.2.2
  have hback : ∀ c ∈ q.contents.drop (q.held.length - n), c.1.block ≠ .lampMonitor := fun c hc hblock => by
    rw [Queue.contents, ← List.map_drop] at hc
    obtain ⟨y, hy, rfl⟩ := List.mem_map.1 hc
    have hkind : y.kind = .lampFail := by
      revert hblock
      show y.kind.block = _ → _
      cases y.kind <;> simp [EventKind.block]
    have := hpassed y hy
    simp [mustFollow, hf, hkind] at this
  have before : (q.submit fault.1 fault.2.1 fault.2.2.1 fault.2.2.2).LampsBefore (q.contents.take (q.held.length - n)) :=
    ⟨by rw [Queue.submit_length h]; omega, fault, _, hcontents, by rw [hf]; rfl, hback⟩
  refine ⟨_, before, by simp [Queue.contents], ?_⟩
  rw [← before.ofBlock, Queue.submit_ofBlock h, hf]
  simp [EventKind.block]

/-- A later submission stands behind the FAULT record, or lengthens what stands before it by one record; with room for that it drops no
LAMP_FAIL record. -/
theorem Queue.LampsBefore.submit {front : List Said} {q : Queue} (h : q.LampsBefore front) {c : Said} (hc : c.1.block ≠ .lampMonitor)
    (hroom : front.length + (if c.1.block ≠ .modeController then 1 else 0) ≤ 127) :
    ∃ front', (q.submit c.1 c.2.1 c.2.2.1 c.2.2.2).LampsBefore front' ∧
      front'.length ≤ front.length + (if c.1.block ≠ .modeController then 1 else 0) ∧
      front'.filter (fun c => c.1.block = .lampMonitor) = front.filter fun c => c.1.block = .lampMonitor := by
  obtain ⟨hdepth, fault, back, hfront, hfault, hback⟩ := h
  have hlen : q.contents.length = q.held.length := by simp [Queue.contents]
  obtain ⟨n, -, hpassed, hcontents⟩ := Queue.submit_contents_take (.inl hdepth) c
  have hmax : max 128 q.held.length = 128 := by omega
  rw [hmax] at hcontents
  have hdepth' : (q.submit c.1 c.2.1 c.2.2.1 c.2.2.2).held.length ≤ 128 := by
    have := congrArg List.length hcontents
    simp only [Queue.contents, List.length_map, List.length_take] at this
    omega
  generalize q.held.length - n = k at hpassed hcontents
  by_cases hk : k ≤ front.length
  · have hblock : c.1.block ≠ .modeController := fun hc => by
      have hmem : fault ∈ q.contents.drop k := by
        rw [hfront, List.drop_append_of_le_length hk]; simp
      rw [Queue.contents, ← List.map_drop] at hmem
      obtain ⟨y, hy, rfl⟩ := List.mem_map.1 hmem
      have hsame : c.1.block = y.kind.block := hc.trans hfault.symm
      have := hpassed y hy
      simp [mustFollow, saidRecord, hsame] at this
    rw [if_pos hblock] at hroom ⊢
    have hnew : (front.take k ++ c :: front.drop k).length = front.length + 1 := by
      simp only [List.length_append, List.length_cons, List.length_take, List.length_drop]; omega
    rw [hfront, insert_in_front _ _ _ hk, take_behind_front _ _ (by omega), hnew, List.take_cons (by omega)] at hcontents
    refine ⟨front.take k ++ c :: front.drop k, ⟨hdepth', fault, _, hcontents, hfault, fun d hd => hback d (List.mem_of_mem_take hd)⟩,
      hnew.le, ?_⟩
    rw [List.filter_append, List.filter_cons_of_neg (by simpa using hc), ← List.filter_append, List.take_append_drop]
  · obtain ⟨j, hj⟩ : ∃ j, k - front.length = j + 1 := ⟨k - front.length - 1, by omega⟩
    rw [hfront, insert_behind_front _ _ _ (by omega), hj, List.take_succ_cons, List.drop_succ_cons, List.cons_append,
      take_behind_front _ _ (by omega), List.take_cons (by omega)] at hcontents
    refine ⟨front, ⟨hdepth', fault, _, hcontents, hfault, fun d hd => ?_⟩, Nat.le_add_right _ _, rfl⟩
    rcases List.mem_append.1 (List.mem_of_mem_take hd) with hd | hd
    · exact hback d (List.mem_of_mem_take hd)
    · rcases List.mem_cons.1 hd with rfl | hd
      · exact hc
      · exact hback d (List.mem_of_mem_drop hd)

/-- Behind a FAULT record the mode controller may submit any number of records and the others as many as there is room for before it: the
LAMP_FAIL records stand. -/
theorem Queue.LampsBefore.submits (l : List Said) {front : List Said} {q : Queue} (h : q.LampsBefore front)
    (hl : ∀ c ∈ l, c.1.block ≠ .lampMonitor) (hroom : front.length + l.countP (fun c => c.1.block ≠ .modeController) ≤ 127) :
    (q.submits l).ofBlock .lampMonitor = q.ofBlock .lampMonitor := by
  induction l generalizing q front with
  | nil => rfl
  | cons c l ih =>
    rw [List.countP_cons] at hroom
    simp only [decide_eq_true_eq] at hroom
    have hc := hl c List.mem_cons_self
    obtain ⟨front', hnext, hlen, hfilter⟩ := h.submit hc (by omega)
    have hrest := ih hnext (fun d hd => hl d (List.mem_cons_of_mem _ hd)) (by omega)
    rw [Queue.submits_cons, hrest, hnext.ofBlock, hfilter, h.ofBlock]

/-- LAMP_FAIL records with room, and then a FAULT record and what follows it in its event: of the LAMP_FAIL records none is lost. -/
theorem Queue.submits_lampMonitor {q : Queue} {reports rest : List Said} (hreports : ∀ c ∈ reports, c.1 = .lampFail)
    (hfault : ∀ c ∈ rest.head?, c.1 = .fault) (hrest : ∀ c ∈ rest, c.1.block ≠ .lampMonitor)
    (hroom : q.held.length + reports.length + rest.countP (fun c => c.1.block ≠ .modeController) ≤ 127) :
    (q.submits (reports ++ rest)).ofBlock .lampMonitor = q.ofBlock .lampMonitor ++ reports := by
  have hroom' : q.held.length + reports.length ≤ 128 := by omega
  have hall : reports.filter (fun c => c.1.block = .lampMonitor) = reports :=
    List.filter_eq_self.2 fun c hc => by rw [hreports c hc]; rfl
  have first : (q.submits reports).ofBlock .lampMonitor = q.ofBlock .lampMonitor ++ reports := by
    rw [Queue.submits_ofBlock _ hroom', hall]
  have hlen := Queue.submits_length reports hroom'
  rw [Queue.submits_append, ← first]
  rcases rest with _ | ⟨fault, later⟩
  · rfl
  · have hkind : fault.1 = .fault := hfault fault rfl
    obtain ⟨front, hbefore, hfront, hfilter⟩ := Queue.lampsBefore_of_fault (q := q.submits reports) (by omega) hkind
    rw [List.countP_cons, hkind] at hroom
    rw [Queue.submits_cons, hbefore.submits later (fun c hc => hrest c (List.mem_cons_of_mem _ hc)) (by omega), hbefore.ofBlock, hfilter]

end Sys2Proof.Machine

/-! PROOFS. LAMP_FAIL: when a line fails and is reported, its flag, and its records among those of the sample (R107 to R110). -/

namespace Sys2Proof.Machine

open Sys2Proof

/-! ### Failing lines and their flags -/

/-- The lamp-out run of a line. -/
def lampOutRun (s : State) (g : GroupNo) (line : Line) : Nat :=
  if line = .stop then (s.lamps.stopOutRuns.get g).count else if line = .clear then s.lamps.clearOutRuns.get g else s.lamps.goOutRuns.get g

section

variable (x : SenseSample) (s : State) (g : GroupNo) (line : Line)

/-- The line fails at the sample: dark while driven steady, with its run at PD or more, and red redundant for STOP (R107, R108). -/
def LineFails : Prop := s.configured g = true ∧ (s.record g).proving = true ∧
  (s.mode.mode = .allStop ∨ s.mode.mode = .normal ∨ s.mode.mode = .toFlash) ∧ s.drive g line = .steady ∧
  (∀ y ∈ (x :: s.lamps.samples).take 6, (senseLine y line).getLsbD g.val = false) ∧
  s.active.timing.provingDelay.toNat ≤ min (lampOutRun s g line + 1) 255 ∧ (line = .stop → (s.record g).redundant = true)

theorem not_sensed_iff : ¬Sensed x s g line ↔ ∀ y ∈ (x :: s.lamps.samples).take 6, (senseLine y line).getLsbD g.val = false := by
  simp [Sensed]

theorem lampOutCount_found (h : lampOutFound (reading x s) g line = true) :
    lampOutCount (reading x s) g line = min (lampOutRun s g line + 1) 255 := by
  unfold lampOutCount
  rw [h]
  cases line <;> rfl

theorem lampFailing_iff : lampFailing (reading x s) g line = true ↔ LineFails x s g line := by
  have hp : provingDelay (reading x s) = s.active.timing.provingDelay.toNat := rfl
  have hr : ((reading x s).record g).redundant = (s.record g).redundant := rfl
  have hred : (decide (line ≠ .stop) || (s.record g).redundant) = true ↔ (line = .stop → (s.record g).redundant = true) := by
    cases line <;> simp
  rw [lampFailing, Bool.and_eq_true, Bool.and_eq_true, decide_eq_true_iff, hp, hr, hred]
  constructor
  · rintro ⟨⟨hfound, hrun⟩, hstop⟩
    rw [lampOutCount_found x s g line hfound] at hrun
    obtain ⟨⟨hc, hpr⟩, hm, hd, hdark⟩ := (lampOutFound_iff x s g line).1 hfound
    exact ⟨hc, hpr, hm, hd, (not_sensed_iff x s g line).1 hdark, hrun, hstop⟩
  · rintro ⟨hc, hpr, hm, hd, hdark, hrun, hstop⟩
    have hfound := (lampOutFound_iff x s g line).2 ⟨⟨hc, hpr⟩, hm, hd, (not_sensed_iff x s g line).2 hdark⟩
    rw [lampOutCount_found x s g line hfound]
    exact ⟨⟨hfound, hrun⟩, hstop⟩

/-- The flags that stand when the sample reports (R109). -/
theorem rearmed_getLsbD : (rearmed (reading x s) line).getLsbD g.val = ((s.lamps.failed line).getLsbD g.val &&
    !(senseLine x line).getLsbD g.val && s.configured g && (s.record g).proving) := by
  have hfailed : (reading x s).lamps.failed line = s.lamps.failed line := by cases line <;> rfl
  have hraw : (reading x s).lamps.raw = x := rfl
  have hproved : proved (reading x s) g = (s.configured g && (s.record g).proving) := rfl
  rw [rearmed, BitVec.getLsbD_and, BitVec.getLsbD_and, BitVec.getLsbD_not, maskOf_getLsbD, hfailed, hraw, hproved, decide_eq_true g.isLt]
  simp only [Bool.true_and, Bool.and_assoc]

/-- A line is reported where it fails with its flag clear (R109). -/
theorem lampReported_iff : lampReported (reading x s) g line = true ↔
    LineFails x s g line ∧ (s.lamps.failed line).getLsbD g.val = false := by
  rw [lampReported, Bool.and_eq_true, lampFailing_iff, Bool.not_eq_true', rearmed_getLsbD]
  refine and_congr_right fun ⟨hconfigured, hproving, _, _, hdark, _⟩ => ?_
  have hraw : (senseLine x line).getLsbD g.val = false := hdark x (by simp)
  rw [hraw, hconfigured, hproving]; simp

variable {s}

/-- The flag of a line after a sample (R109). -/
theorem lampPart_failed (h : s.parts.lamps = true) : ((lampPart x s).lamps.failed line).getLsbD g.val =
    ((s.lamps.failed line).getLsbD g.val && !(senseLine x line).getLsbD g.val && s.configured g && (s.record g).proving ||
      lampFailing (reading x s) g line) := by
  have hnext : (lampPart x s).lamps.failed line = nextFailed (reading x s) line := by
    rw [lampPart_lamps h]; cases line <;> rfl
  rw [hnext, nextFailed, BitVec.getLsbD_or, rearmed_getLsbD, maskOf_getLsbD]

end

/-! ### The reports of a sample -/

/-- The STOP and the GO line of a group are not driven steady together (R6). -/
theorem lineDrive_stop_or_go (r : GroupRecord) (st : GroupState) : lineDrive r st .stop ≠ .steady ∨ lineDrive r st .go ≠ .steady := by
  cases st
  case go => exact .inl (by simp [lineDrive])
  case clearing => exact .inl (by simp [lineDrive])
  all_goals exact .inr (by simp [lineDrive])

/-- A line that is not driven steady is not reported (R107, R108). -/
theorem lampReported_drive {r : State} {g : GroupNo} {line : Line} (h : lampReported r g line = true) :
    lineDrive (r.record g) (r.group g).state line = .steady := by
  simp only [lampReported, lampFailing, lampOutFound, Bool.and_eq_true, decide_eq_true_iff] at h
  obtain ⟨⟨⟨⟨⟨-, hdrive⟩, -⟩, -⟩, -⟩, -⟩ := h
  unfold State.drive at hdrive
  split at hdrive
  · cases hdrive
  · exact hdrive

/-- A sample reports two lines of each group at most. -/
theorem lampReports_length (r : State) : (lampReports r).length ≤ 64 := by
  have two : ∀ g, (([Line.stop, .clear, .go].filter fun line => lampReported r g line).map fun line => (g, line)).length ≤ 2 := fun g => by
    have dark : lampReported r g .stop = false ∨ lampReported r g .go = false :=
      (lineDrive_stop_or_go (r.record g) (r.group g).state).imp (fun h => Bool.eq_false_iff.2 (mt lampReported_drive h))
        fun h => Bool.eq_false_iff.2 (mt lampReported_drive h)
    rw [List.length_map, ← List.countP_eq_length_filter]
    simp only [List.countP_cons, List.countP_nil]
    have one : ∀ line, (if lampReported r g line = true then 1 else 0) ≤ 1 := fun line => by split <;> simp
    have stop := one .stop
    have clear := one .clear
    have go := one .go
    rcases dark with h | h <;> simp only [h, Bool.false_eq_true, if_false] <;> omega
  rw [lampReports, List.length_flatMap]
  have := List.sum_le_card_nsmul ((List.finRange 32).map fun g =>
    (([Line.stop, .clear, .go].filter fun line => lampReported r g line).map fun line => (g, line)).length) 2 (by simpa using two)
  simpa using this

theorem mem_lampReports {r : State} {p : GroupNo × Line} : p ∈ lampReports r ↔ lampReported r p.1 p.2 = true := by
  obtain ⟨g, line⟩ := p
  simp only [lampReports, List.mem_flatMap, List.mem_finRange, true_and, List.mem_map, List.mem_filter, Prod.mk.injEq]
  constructor
  · rintro ⟨g, line, ⟨-, h⟩, rfl, rfl⟩; exact h
  · exact fun h => ⟨g, line, ⟨by cases line <;> simp, h⟩, rfl, rfl⟩

/-- A line is reported once. -/
theorem lampReports_nodup (r : State) : (lampReports r).Nodup := by
  refine List.nodup_flatMap.2 ⟨fun g _ => List.Nodup.map (fun a b h => (Prod.mk.inj h).2) (List.Nodup.filter _ (by decide)), ?_⟩
  refine (List.nodup_finRange 32).imp fun {a b} hne => ?_
  intro p ha hb
  obtain ⟨_, -, rfl⟩ := List.mem_map.1 ha
  obtain ⟨_, -, h⟩ := List.mem_map.1 hb
  exact hne (Prod.mk.inj h).1.symm

/-! ### The records of a line -/

/-- A LAMP_FAIL record of the line (11.8). -/
def ofLine (g : GroupNo) (line : Line) (n : Said) : Bool :=
  decide (n.1 = .lampFail ∧ n.2.2.1 = subjectOf g.val ∧ n.2.2.2.extractLsb' 0 8 = BitVec.ofNat 8 (lineCode line))

/-- The records of a line are of the lamp monitor. -/
theorem ofLine_block {g : GroupNo} {line : Line} {n : Said} (h : ofLine g line n = true) : n.1.block = .lampMonitor := by
  simp only [ofLine, decide_eq_true_iff] at h
  rw [h.1]; rfl

theorem filter_ofLine (q : Queue) (g : GroupNo) (line : Line) :
    q.contents.filter (ofLine g line) = (q.ofBlock .lampMonitor).filter (ofLine g line) := by
  rw [Queue.ofBlock, List.filter_filter]
  refine List.filter_congr fun n _ => ?_
  cases h : ofLine g line n
  · simp
  · simp [ofLine_block h]

theorem subjectOf_inj {g i : GroupNo} (h : subjectOf g.val = subjectOf i.val) : g = i := by
  have := congrArg BitVec.toNat h
  simp only [subjectOf, BitVec.toNat_ofNat] at this
  exact Fin.ext (by omega)

/-- A LAMP_FAIL record says its line in its low byte (11.8). -/
theorem lampFailDetail_line (a b : Line) (st : GroupState) :
    (lampFailDetail a st).extractLsb' 0 8 = BitVec.ofNat 8 (lineCode b) ↔ a = b := by
  rw [lampFailDetail, wordOf_eq_append, BitVec.extractLsb'_append_eq_right]
  cases a <;> cases b <;> decide

theorem ofLine_reportRecord (r : State) (g : GroupNo) (line : Line) (p : GroupNo × Line) :
    ofLine g line (reportRecord r p) = decide (p = (g, line)) := by
  obtain ⟨i, a⟩ := p
  refine decide_eq_decide.2 ⟨fun ⟨_, hgroup, hline⟩ => ?_, fun h => ?_⟩
  · exact Prod.ext (subjectOf_inj hgroup) ((lampFailDetail_line a line _).1 hline)
  · obtain ⟨rfl, rfl⟩ := Prod.mk.inj h
    exact ⟨rfl, rfl, (lampFailDetail_line a a _).2 rfl⟩

/-- Of a line's records a sample submits one where it reports the line, and none otherwise. -/
theorem reports_ofLine (r : State) (g : GroupNo) (line : Line) : ((lampReports r).map (reportRecord r)).filter (ofLine g line) =
    if lampReported r g line then [reportRecord r (g, line)] else [] := by
  have hline : (ofLine g line ∘ reportRecord r) = fun p => decide (p = (g, line)) := funext (ofLine_reportRecord r g line)
  rw [List.filter_map, hline, List.filter_eq, (lampReports_nodup r).count]
  simp only [mem_lampReports]
  split <;> rfl

/-! ### The submissions of a sample -/

/-- A sample submits its LAMP_FAIL records, and behind them its FAULT record and what follows it: the mode controller's records, and at most
one for each group (R64, R66, R110). -/
theorem lampPart_submits {s : State} (h : s.parts.lamps = true) (x : SenseSample) : ∃ rest : List Said,
    (lampPart x s).queue = s.queue.submits ((lampReports (reading x s)).map (reportRecord (reading x s)) ++ rest) ∧
    (∀ c ∈ rest.head?, c.1 = .fault) ∧ (∀ c ∈ rest, c.1.block ≠ .lampMonitor) ∧
    rest.countP (fun c => c.1.block ≠ .modeController) ≤ 32 := by
  have blocks : ∀ l : List (FaultCause × Byte × Byte), ∀ c ∈ l.map (faultRecord true s), c.1 = .fault := fun l c hc => by
    obtain ⟨d, -, rfl⟩ := List.mem_map.1 hc; rfl
  have moves : ∀ c ∈ flashingRecords s, c.1 = .groupState := fun c hc => by
    obtain ⟨g, -, rfl⟩ := List.mem_map.1 hc; rfl
  have latched : ∀ l : List (FaultCause × Byte × Byte),
      (l.map (faultRecord true s)).countP (fun c => c.1.block ≠ .modeController) = 0 := fun l =>
    List.countP_eq_zero.2 fun c hc => by rw [blocks l c hc]; decide
  by_cases hm : s.mode.mode = .faultFlash
  · have hn : lampReports (reading x s) = [] := lampReports_nil x s (by rw [← Bool.not_eq_true, lampOutMode_iff, hm]; simp)
    refine ⟨(declarations (reading x s)).map (faultRecord true s), ?_, fun c hc => blocks _ c (List.mem_of_mem_head? hc),
      fun c hc => by rw [blocks _ c hc]; decide, (latched _).trans_le (Nat.zero_le _)⟩
    rw [hn]; exact (lampPart_latched h hm).2
  · rcases hd : declarations (reading x s) with _ | ⟨⟨cause, first, second⟩, later⟩
    · refine ⟨[], ?_, by simp, by simp, by simp⟩
      rw [lampPart_eq h, hd, List.append_nil]; rfl
    · refine ⟨_, (lampPart_entry h hm hd).2, fun c hc => ?_, fun c hc => ?_, ?_⟩
      · cases hc; rfl
      · rcases List.mem_append.1 hc with hc | hc
        · rcases List.mem_cons.1 hc with rfl | hc
          · nofun
          rcases List.mem_cons.1 hc with rfl | hc
          · nofun
          · rw [moves c hc]; decide
        · rw [blocks _ c hc]; decide
      · rw [List.countP_append, latched, List.countP_cons_of_neg, List.countP_cons_of_neg]
        · exact (List.countP_le_length).trans (flashingRecords_length s)
        · simp [modeRecord, EventKind.block]
        · simp [faultRecord, EventKind.block]

/-- Where 31 records at most are held no LAMP_FAIL record is lost: two lines of a group at most are reported and one order at most moves it,
so that even a fault entry's records leave them room (R110, R148, R154). -/
theorem lampPart_lampFails {s : State} (h : s.parts.lamps = true) (x : SenseSample) (room : s.queue.held.length ≤ 31) :
    (lampPart x s).queue.ofBlock .lampMonitor =
      s.queue.ofBlock .lampMonitor ++ (lampReports (reading x s)).map (reportRecord (reading x s)) := by
  obtain ⟨rest, hqueue, hfault, hrest, hcount⟩ := lampPart_submits h x
  have hreports := lampReports_length (reading x s)
  rw [hqueue]
  refine Queue.submits_lampMonitor (fun c hc => ?_) hfault hrest (by rw [List.length_map]; omega)
  obtain ⟨p, -, rfl⟩ := List.mem_map.1 hc; rfl

/-- The records of a line after a sample, with room in the queue. -/
theorem lampPart_ofLine {s : State} (h : s.parts.lamps = true) (x : SenseSample) (g : GroupNo) (line : Line)
    (room : s.queue.held.length ≤ 31) : (lampPart x s).queue.contents.filter (ofLine g line) = s.queue.contents.filter (ofLine g line) ++
      if lampReported (reading x s) g line then [reportRecord (reading x s) (g, line)] else [] := by
  rw [filter_ofLine, filter_ofLine, lampPart_lampFails h x room, List.filter_append, reports_ofLine]

/-- A line that is not reported has the records it had, where no record held can be passed. -/
theorem lampPart_ofLine_of_not_reported {s : State} (h : s.parts.lamps = true) (x : SenseSample) (g : GroupNo) (line : Line)
    (hn : lampReported (reading x s) g line = false) (hf : s.queue.fresh = 0) :
    (lampPart x s).queue.contents.filter (ofLine g line) = s.queue.contents.filter (ofLine g line) := by
  obtain ⟨rest, hqueue, -, hrest, -⟩ := lampPart_submits h x
  obtain ⟨new, hcontents, hnew⟩ := Queue.submits_behind
    ((lampReports (reading x s)).map (reportRecord (reading x s)) ++ rest) hf
  have none : new.filter (ofLine g line) = [] := List.filter_eq_nil_iff.2 fun c hc hline => by
    rcases List.mem_append.1 (hnew c hc) with hc | hc
    · have hmem : c ∈ ((lampReports (reading x s)).map (reportRecord (reading x s))).filter (ofLine g line) :=
        List.mem_filter.2 ⟨hc, hline⟩
      rw [reports_ofLine, hn] at hmem
      cases hmem
    · exact hrest c hc (ofLine_block hline)
  rw [hqueue, hcontents, List.filter_append, none, List.append_nil]

/-- Settles O27: the sample reports the line where it fails with its flag clear, and no other submission of the sample is of the line. -/
theorem lampFailIsReportedOnce : Obligations.LampFailIsReportedOnce := by
  intro s x g line h
  have hreported := lampReported_iff x s g line
  have hexec : exec (.lampFail g line x) s = .next (if lampReported (reading x s) g line then lampPart x s else s) := rfl
  refine ⟨lampPart x s, rfl, fun hfails => ?set, fun hfails => ?rest, fun hrep => ?reported, fun hrep => ?silent⟩
  case set => rw [lampPart_failed x g line h, (lampFailing_iff x s g line).2 hfails, Bool.or_true]
  case rest =>
    have hfailing : lampFailing (reading x s) g line = false := Bool.eq_false_iff.2 fun k => hfails ((lampFailing_iff x s g line).1 k)
    rw [lampPart_failed x g line h, hfailing, Bool.or_false]
  case reported =>
    have hr := hreported.2 hrep
    refine ⟨by rw [hexec, if_pos hr], fun room => (lampPart_ofLine h x g line room).trans ?_⟩
    rw [if_pos hr]; rfl
  case silent =>
    have hr : lampReported (reading x s) g line = false := Bool.eq_false_iff.2 fun k => hrep (hreported.1 k)
    refine ⟨by rw [hexec, hr]; rfl, fun room => ?_⟩
    rcases room with room | fresh
    · refine (lampPart_ofLine h x g line room).trans ?_
      rw [hr]; exact List.append_nil _
    · exact lampPart_ofLine_of_not_reported h x g line hr fresh

end Sys2Proof.Machine

/-! PROOFS. A detector's turn in a sample or a step, as an effect: the detector's record after it, the records it submits and the calls it
sets; and what a sweep of turns over the detectors does to each of them, to the call bits and to the queue (R122, R128). -/

namespace Sys2Proof.Machine

open Sys2Proof

/-! ### Turns -/

/-- What a detector's turn leaves: its record, the kinds and details of the records submitted, and the groups called. -/
structure DetectorTurn where
  detector : Detector
  records : List (EventKind × Word)
  calls : Mask

/-- A turn that writes the detector's record alone. -/
def DetectorTurn.stay (v : Detector) : DetectorTurn := ⟨v, [], 0⟩

/-- A turn before which a record is submitted. -/
def DetectorTurn.after (r : EventKind × Word) (e : DetectorTurn) : DetectorTurn := { e with records := r :: e.records }

@[simp] theorem DetectorTurn.stay_detector (v : Detector) : (stay v).detector = v := rfl
@[simp] theorem DetectorTurn.stay_records (v : Detector) : (stay v).records = [] := rfl
@[simp] theorem DetectorTurn.stay_calls (v : Detector) : (stay v).calls = 0 := rfl
@[simp] theorem DetectorTurn.after_records (r : EventKind × Word) (e : DetectorTurn) : (e.after r).records = r :: e.records := rfl

/-- A turn's records, with the detector as subject and the clock of `s` as stamp (R117, R148). -/
def DetectorTurn.said (s : State) (d : DetectorNo) (e : DetectorTurn) : List Said :=
  e.records.map fun r => (r.1, lowWord s.clock, subjectOf d.val, r.2)

/-- The state with a detector's turn taken. -/
def State.takeTurn (s : State) (d : DetectorNo) (e : DetectorTurn) : State :=
  { s with
    queue := s.queue.submits (e.said s d)
    detectors := { s.detectors with
      detectors := s.detectors.detectors.set d e.detector, calls := s.detectors.calls ||| (e.calls &&& s.configuredMask) } }

section

variable (s : State) (d : DetectorNo) (v : Detector) (e : DetectorTurn)

theorem takeTurn_detects : DetectsOnly d s (s.takeTurn d e) := ⟨rfl, fun _ he => vector_get_set_ne _ _ he⟩

theorem takeTurn_detector_self : (s.takeTurn d e).detector d = e.detector := vector_get_set_self _ _ _

theorem takeTurn_calls (g : GroupNo) : (s.takeTurn d e).detectors.calls.getLsbD g.val =
    (s.detectors.calls.getLsbD g.val || (e.calls.getLsbD g.val && s.configured g)) :=
  setCalls_getLsbD e.calls s g

theorem takeTurn_stay : s.takeTurn d (.stay v) = s.setDetector d v := by
  simp [State.takeTurn, DetectorTurn.said, State.setDetector]

/-- Of two records written one after the other the second stands. -/
theorem setDetector_takeTurn : (s.setDetector d v).takeTurn d e = s.takeTurn d e := by
  simp only [State.takeTurn, State.setDetector, Vector.set_set]
  rfl

theorem setDetector_setDetector (w : Detector) : (s.setDetector d v).setDetector d w = s.setDetector d w := by
  rw [← takeTurn_stay, setDetector_takeTurn, takeTurn_stay]

theorem submitDetector_takeTurn (k : EventKind) (w : Word) : (submitDetector k d w s).takeTurn d e = s.takeTurn d (e.after (k, w)) := rfl

theorem submitDetector_setDetector (k : EventKind) (w : Word) :
    submitDetector k d w (s.setDetector d v) = s.takeTurn d ⟨v, [(k, w)], 0⟩ := by
  simp [State.takeTurn, DetectorTurn.said, State.setDetector, submitDetector, submit, subjectOf]

theorem setCalls_submitDetector_setDetector (k : EventKind) (w : Word) (m : Mask) :
    setCalls m (submitDetector k d w (s.setDetector d v)) = s.takeTurn d ⟨v, [(k, w)], m⟩ := rfl

end

/-- The groups in GO do not depend on detectors, call bits and records. -/
theorem DetectorMove.inGo {s t : State} (h : DetectorMove s t) : t.inGo = s.inGo := by
  unfold DetectorMove at h; rw [h]; rfl

theorem DetectorMove.configured {s t : State} (h : DetectorMove s t) (g : GroupNo) : t.configured g = s.configured g := by
  unfold DetectorMove at h; rw [h]; rfl

/-! ### Sweeps -/

/-- The records of a sweep over some detectors, in their order. -/
def turnRecords (s : State) (turns : DetectorNo → DetectorTurn) (l : List DetectorNo) : List Said :=
  l.flatMap fun d => (turns d).said s d

/-- From `s` to `t` the detectors of `l`, and no others, take their turns. -/
structure TurnsTaken (turns : DetectorNo → DetectorTurn) (l : List DetectorNo) (s t : State) : Prop where
  move : DetectorMove s t
  queue : t.queue = s.queue.submits (turnRecords s turns l)
  detector : ∀ d, t.detector d = if d ∈ l then (turns d).detector else s.detector d
  calls : ∀ g : GroupNo, t.detectors.calls.getLsbD g.val = (s.detectors.calls.getLsbD g.val ||
    ((l.any fun d => (turns d).calls.getLsbD g.val) && s.configured g))

theorem TurnsTaken.nil (turns : DetectorNo → DetectorTurn) (s : State) : TurnsTaken turns [] s s :=
  ⟨.refl s, rfl, fun _ => rfl, fun g => by simp⟩

theorem TurnsTaken.cons {turns : DetectorNo → DetectorTurn} {l : List DetectorNo} {s t : State} {d : DetectorNo} (hd : d ∉ l)
    (h : TurnsTaken turns l (s.takeTurn d (turns d)) t) : TurnsTaken turns (d :: l) s t where
  move := (takeTurn_detects s d _).1.trans h.move
  queue := by
    have hcons : turnRecords s turns (d :: l) = (turns d).said s d ++ turnRecords s turns l := rfl
    rw [h.queue, hcons, Queue.submits_append]; rfl
  detector e := by
    rw [h.detector e]
    by_cases he : e = d
    · subst he
      rw [if_neg hd, if_pos List.mem_cons_self, takeTurn_detector_self]
    · rw [(takeTurn_detects s d _).2 e he]
      simp [he]
  calls g := by
    rw [h.calls g, takeTurn_calls, DetectorMove.configured (takeTurn_detects s d _).1, List.any_cons, Bool.and_or_distrib_right,
      Bool.or_assoc]

/-- A fold in which each detector takes the turn that its own record before the sweep gives it. -/
theorem foldl_turnsTaken {f : State → DetectorNo → State} {turns : DetectorNo → DetectorTurn} {s : State}
    (hf : ∀ u d, DetectorMove s u → u.detector d = s.detector d → f u d = u.takeTurn d (turns d)) (l : List DetectorNo) {u : State}
    (hl : l.Nodup) (hu : DetectorMove s u) (hd : ∀ d ∈ l, u.detector d = s.detector d) : TurnsTaken turns l u (l.foldl f u) := by
  induction l generalizing u with
  | nil => exact .nil turns u
  | cons d l ih =>
    obtain ⟨hnotin, hnodup⟩ := List.nodup_cons.1 hl
    have detects := takeTurn_detects u d (turns d)
    rw [List.foldl_cons, hf u d hu (hd d List.mem_cons_self)]
    refine .cons hnotin (ih hnodup (hu.trans detects.1) fun e he => ?_)
    rw [detects.2 e fun h => hnotin (h ▸ he)]
    exact hd e (List.mem_cons_of_mem _ he)

/-- The turns that every detector of the unit takes, in ascending number (R128). -/
theorem TurnsTaken.all {turns : DetectorNo → DetectorTurn} {s t : State} (h : TurnsTaken turns (List.finRange 48) s t) (d : DetectorNo) :
    t.detector d = (turns d).detector := by
  rw [h.detector d, if_pos (List.mem_finRange d)]

/-- No call bit falls. -/
theorem TurnsTaken.calls_kept {turns : DetectorNo → DetectorTurn} {l : List DetectorNo} {s t : State} (h : TurnsTaken turns l s t)
    {g : GroupNo} (hg : s.detectors.calls.getLsbD g.val = true) : t.detectors.calls.getLsbD g.val = true := by
  rw [h.calls g, hg, Bool.true_or]

/-- A detector's turn sets the calls it names on configured groups. -/
theorem TurnsTaken.called {turns : DetectorNo → DetectorTurn} {s t : State} (h : TurnsTaken turns (List.finRange 48) s t) {d : DetectorNo}
    {g : GroupNo} (hg : (turns d).calls.getLsbD g.val = true) (hc : s.configured g = true) :
    t.detectors.calls.getLsbD g.val = true := by
  have any : (List.finRange 48).any (fun d => (turns d).calls.getLsbD g.val) = true := List.any_eq_true.2 ⟨d, List.mem_finRange d, hg⟩
  rw [h.calls g, any, hc, Bool.and_self, Bool.or_true]

/-! ### The records of a sweep -/

theorem turnRecords_length {turns : DetectorNo → DetectorTurn} {n : Nat} (h : ∀ d, (turns d).records.length ≤ n) (s : State) :
    (turnRecords s turns (List.finRange 48)).length ≤ 48 * n := by
  have := length_flatMap_le (f := fun d => (turns d).said s d) (fun d => by rw [DetectorTurn.said, List.length_map]; exact h d)
    (List.finRange 48)
  rwa [List.length_finRange] at this

/-- With room for all the records of a sweep, each of them is held after it. -/
theorem TurnsTaken.records {turns : DetectorNo → DetectorTurn} {s t : State} (h : TurnsTaken turns (List.finRange 48) s t) {n : Nat}
    (hn : ∀ d, (turns d).records.length ≤ n) (room : s.queue.held.length + 48 * n ≤ 128) {d : DetectorNo} {k : EventKind} {w : Word}
    (hr : (k, w) ∈ (turns d).records) : Records t.queue s k (subjectOf d.val) w := by
  have hlen := turnRecords_length hn s
  rw [records_iff, h.queue]
  exact Queue.mem_submits _ (by omega) (List.mem_flatMap.2 ⟨d, List.mem_finRange d, List.mem_map.2 ⟨(k, w), hr, rfl⟩⟩)

end Sys2Proof.Machine

/-! PROOFS. The turns of a sample: the filter, the activation and the deactivation of a detector (R116 to R118, R121, R122), and the whole
sample (R115, R128). -/

namespace Sys2Proof.Machine

open Sys2Proof

/-! ### Activation -/

/-- The detector as its entry to OCCUPIED leaves it (R119). -/
def Detector.occupied (v : Detector) : Detector := { v with state := .occupied, occupancy := 0 }

/-- The detector as an activation from any state leaves it (R117). -/
def Detector.activated (v : Detector) : Detector := { v with total := v.total + 1, gap := 0 }

/-- An activation from FREE, the groups of `inGo` being in GO (R117, R118, R119, R122). -/
def occupyTurn (inGo : Mask) (v : Detector) : DetectorTurn :=
  match v.kind with
  | .presence => ⟨v.occupied, [(.detOccupied, 0)], v.mapped &&& ~~~inGo⟩
  | .pulse => ⟨v.occupied, [(.detPulse, 0)], v.mapped &&& ~~~inGo⟩
  | .count => ⟨(accumulate v.occupied).1, if (accumulate v.occupied).2 then [(.detCount, lowWord v.total)] else [], 0⟩
  | .off => .stay v

/-- An activation from any state (R117, R121). -/
def activateTurn (inGo : Mask) (v : Detector) : DetectorTurn :=
  match v.state with
  | .free => occupyTurn inGo v.activated
  | .faultedOff => (occupyTurn inGo v.activated).after (.detRecover, 2)
  | _ => .stay v.activated

/-- A deactivation (R117, R121). -/
def deactivateTurn (v : Detector) : DetectorTurn :=
  match v.state with
  | .occupied =>
    ⟨{ v with state := .free }, if v.kind = .presence then [(.detFree, BitVec.ofNat 16 (min v.occupancy Config.wordLimit))] else [], 0⟩
  | .faultedOn => ⟨{ v with state := .free, gap := 0 }, [(.detRecover, 1)], 0⟩
  | _ => .stay v

/-- A detector's part of a sample (R115, R116). -/
def sampleTurn (x : Bool) (inGo : Mask) (v : Detector) : DetectorTurn :=
  let u : Detector := { v with raw := x }
  let f := filterSample x u
  if v.kind = .off then .stay u
  else if f.2 then (if x then activateTurn inGo f.1 else deactivateTurn f.1)
  else .stay f.1

section

variable (inGo : Mask) {v : Detector}

/-- The activation of a detector that maps groups (R117, R122). -/
theorem occupyTurn_maps (h : v.kind = .presence ∨ v.kind = .pulse) : occupyTurn inGo v =
    ⟨v.occupied, [(if v.kind = .presence then .detOccupied else .detPulse, 0)], v.mapped &&& ~~~inGo⟩ := by
  rcases h with h | h <;> rw [occupyTurn, h] <;> rfl

theorem occupyTurn_count (h : v.kind = .count) : occupyTurn inGo v =
    ⟨(accumulate v.occupied).1, if (accumulate v.occupied).2 then [(.detCount, lowWord v.total)] else [], 0⟩ := by
  rw [occupyTurn, h]

theorem occupyTurn_off (h : v.kind = .off) : occupyTurn inGo v = .stay v := by
  rw [occupyTurn, h]

theorem activateTurn_free (h : v.state = .free) : activateTurn inGo v = occupyTurn inGo v.activated := by
  rw [activateTurn, h]

/-- FAULTED_OFF recovers first, and then as from FREE (R121). -/
theorem activateTurn_faultedOff (h : v.state = .faultedOff) :
    activateTurn inGo v = (occupyTurn inGo v.activated).after (.detRecover, 2) := by
  rw [activateTurn, h]

theorem activateTurn_stays (h : v.state ≠ .free) (h' : v.state ≠ .faultedOff) : activateTurn inGo v = .stay v.activated := by
  unfold activateTurn
  split
  · exact absurd ‹_› h
  · exact absurd ‹_› h'
  · rfl

theorem deactivateTurn_occupied (h : v.state = .occupied) : deactivateTurn v =
    ⟨{ v with state := .free }, if v.kind = .presence then [(.detFree, BitVec.ofNat 16 (min v.occupancy 65535))] else [], 0⟩ := by
  rw [deactivateTurn, h]; rfl

theorem deactivateTurn_faultedOn (h : v.state = .faultedOn) :
    deactivateTurn v = ⟨{ v with state := .free, gap := 0 }, [(.detRecover, 1)], 0⟩ := by
  rw [deactivateTurn, h]

theorem deactivateTurn_stays (h : v.state ≠ .occupied) (h' : v.state ≠ .faultedOn) : deactivateTurn v = .stay v := by
  unfold deactivateTurn
  split
  · exact absurd ‹_› h
  · exact absurd ‹_› h'
  · rfl

end

theorem setDetector_occupy (s : State) (d : DetectorNo) (v : Detector) :
    occupy d (s.setDetector d v) = s.takeTurn d (occupyTurn s.inGo v) := by
  have hgo : (s.setDetector d v).inGo = s.inGo := rfl
  unfold occupy
  simp only [State.setDetector_detector_self, setDetector_setDetector, hgo]
  split
  · rename_i hk
    rw [occupyTurn_maps _ (.inl hk), if_pos hk]; rfl
  · rename_i hk
    rw [occupyTurn_maps _ (.inr hk), if_neg (by simp [hk])]; rfl
  · rename_i hk
    rw [occupyTurn_count _ hk]
    show (if (accumulate v.occupied).2 then _ else _) = _
    split
    · exact submitDetector_setDetector s d _ _ _
    · exact (takeTurn_stay s d _).symm
  · rename_i hk
    rw [occupyTurn_off _ hk, takeTurn_stay]

theorem setDetector_activate (s : State) (d : DetectorNo) (v : Detector) :
    activate d (s.setDetector d v) = s.takeTurn d (activateTurn s.inGo v) := by
  unfold activate
  simp only [State.setDetector_detector_self, setDetector_setDetector]
  split
  · rename_i hs
    rw [activateTurn_free _ hs]
    exact setDetector_occupy s d v.activated
  · rename_i hs
    rw [activateTurn_faultedOff _ hs]
    exact (setDetector_occupy (submitDetector .detRecover d 2 s) d v.activated).trans (submitDetector_takeTurn s d _ _ _)
  · rename_i hs hs'
    rw [activateTurn_stays _ hs hs', takeTurn_stay]; rfl

theorem setDetector_deactivate (s : State) (d : DetectorNo) (v : Detector) :
    deactivate d (s.setDetector d v) = s.takeTurn d (deactivateTurn v) := by
  unfold deactivate
  simp only [State.setDetector_detector_self, setDetector_setDetector]
  split
  · rename_i hs
    rw [deactivateTurn_occupied hs]
    split
    · exact submitDetector_setDetector s d _ _ _
    · exact (takeTurn_stay s d _).symm
  · rename_i hs
    rw [deactivateTurn_faultedOn hs]
    exact submitDetector_setDetector s d _ _ _
  · rename_i hs hs'
    rw [deactivateTurn_stays hs hs', takeTurn_stay]

theorem sampleDetector_eq (inputs : BitVec 48) (s : State) (d : DetectorNo) :
    sampleDetector inputs s d = s.takeTurn d (sampleTurn (inputs.getLsbD d.val) s.inGo (s.detector d)) := by
  unfold sampleDetector sampleTurn
  dsimp only
  split
  · exact (takeTurn_stay s d _).symm
  split
  · split
    · exact setDetector_activate s d _
    · exact setDetector_deactivate s d _
  · exact (takeTurn_stay s d _).symm

/-! ### The filter -/

/-- The filter of the direction in which the detector's level would change (R116). -/
def Detector.filter (v : Detector) : Nat := (if v.level then v.offFilter else v.onFilter).toNat

section

variable {x : Bool} {inGo : Mask} {v : Detector}

theorem sampleTurn_off (h : v.kind = .off) : sampleTurn x inGo v = .stay { v with raw := x } := if_pos h

theorem filterSample_eq (x : Bool) (v : Detector) : filterSample x v =
    if x = v.level then ({ v with run := 0 }, false)
    else if v.filter < v.run + 1 then ({ v with level := x, run := 0 }, true) else ({ v with run := v.run + 1 }, false) := by
  rw [filterSample, Detector.filter, apply_ite BitVec.toNat]

theorem sampleTurn_level (h : v.kind ≠ .off) (hx : x = v.level) : sampleTurn x inGo v = .stay { v with raw := x, run := 0 } := by
  simp [sampleTurn, filterSample_eq, h, hx]

theorem sampleTurn_run (h : v.kind ≠ .off) (hx : x ≠ v.level) (hr : v.run + 1 ≤ v.filter) :
    sampleTurn x inGo v = .stay { v with raw := x, run := v.run + 1 } := by
  have hr' : ¬({ v with raw := x } : Detector).filter < v.run + 1 := Nat.not_lt.2 hr
  simp [sampleTurn, filterSample_eq, h, hx, hr']

/-- A sample that changes the level is an activation or a deactivation by its input (R116, R117). -/
theorem sampleTurn_change (h : v.kind ≠ .off) (hx : x ≠ v.level) (hr : v.filter < v.run + 1) : sampleTurn x inGo v =
    if x then activateTurn inGo { v with raw := x, level := x, run := 0 } else deactivateTurn { v with raw := x, level := x, run := 0 } := by
  have hr' : ({ v with raw := x } : Detector).filter < v.run + 1 := hr
  simp [sampleTurn, filterSample_eq, h, hx, hr']

/-- The sample changes the level where the run exceeds the filter (R116). -/
theorem levelChanges_eq_true {s : State} {d : DetectorNo} {inputs : BitVec 48} (hs : s.held = false) (h : (s.detector d).kind ≠ .off)
    (hx : inputs.getLsbD d.val ≠ (s.detector d).level) (hr : (s.detector d).filter < (s.detector d).run + 1) :
    levelChanges d inputs s = true := by
  rw [levelChanges, filterSample_eq, if_neg hx, if_pos hr, hs, decide_eq_true h]; rfl

end

/-! ### What an activation leaves -/

section

variable (inGo : Mask) (v : Detector)

/-- The detector after an activation, but for its state, its timers and its counts. -/
theorem occupyTurn_levels : (occupyTurn inGo v).detector.raw = v.raw ∧ (occupyTurn inGo v).detector.level = v.level ∧
    (occupyTurn inGo v).detector.run = v.run := by
  unfold occupyTurn accumulate
  cases v.kind with
  | presence | pulse | off => exact ⟨rfl, rfl, rfl⟩
  | count => dsimp only; split <;> exact ⟨rfl, rfl, rfl⟩

theorem activateTurn_levels : (activateTurn inGo v).detector.raw = v.raw ∧ (activateTurn inGo v).detector.level = v.level ∧
    (activateTurn inGo v).detector.run = v.run := by
  unfold activateTurn
  cases v.state with
  | free | faultedOff => exact occupyTurn_levels inGo v.activated
  | disabled | occupied | faultedOn => exact ⟨rfl, rfl, rfl⟩

theorem deactivateTurn_levels : (deactivateTurn v).detector.raw = v.raw ∧ (deactivateTurn v).detector.level = v.level ∧
    (deactivateTurn v).detector.run = v.run := by
  unfold deactivateTurn
  cases v.state <;> exact ⟨rfl, rfl, rfl⟩

variable {v}

/-- From FREE, and after its recovery from FAULTED_OFF, an activation is the same but for the DET_RECOVER record (R121). -/
theorem activateTurn_occupies (h : v.state = .free ∨ v.state = .faultedOff) :
    (activateTurn inGo v).detector = (occupyTurn inGo v.activated).detector ∧
    (activateTurn inGo v).calls = (occupyTurn inGo v.activated).calls ∧
    ∀ r ∈ (occupyTurn inGo v.activated).records, r ∈ (activateTurn inGo v).records := by
  rcases h with h | h
  · rw [activateTurn_free _ h]
    exact ⟨rfl, rfl, fun _ => id⟩
  · rw [activateTurn_faultedOff _ h]
    exact ⟨rfl, rfl, fun _ => List.mem_cons_of_mem _⟩

theorem activateTurn_recovers (h : v.state = .faultedOff) : (.detRecover, 2) ∈ (activateTurn inGo v).records := by
  rw [activateTurn_faultedOff _ h]
  exact List.mem_cons_self

/-- The activation of a COUNT detector short of N (R118). -/
theorem occupyTurn_counts (h : v.kind = .count) (hn : v.accumulator + 1 < v.prescale.toNat) :
    occupyTurn inGo v = .stay { v.occupied with accumulator := v.accumulator + 1 } := by
  have hacc : accumulate v.occupied = ({ v.occupied with accumulator := v.accumulator + 1 }, false) := if_neg (Nat.not_le.2 hn)
  rw [occupyTurn_count _ h, hacc]; rfl

/-- The activation that brings a COUNT detector to N (R118). -/
theorem occupyTurn_reaches (h : v.kind = .count) (hn : v.prescale.toNat ≤ v.accumulator + 1) :
    occupyTurn inGo v = ⟨{ v.occupied with accumulator := 0 }, [(.detCount, lowWord v.total)], 0⟩ := by
  have hacc : accumulate v.occupied = ({ v.occupied with accumulator := 0 }, true) := if_pos hn
  rw [occupyTurn_count _ h, hacc]; rfl

end

/-! ### The calls of a sample -/

section

variable (x : Bool) (inGo : Mask) (v : Detector) {i : Nat}

theorem occupyTurn_calls_inGo (h : inGo.getLsbD i = true) : (occupyTurn inGo v).calls.getLsbD i = false := by
  unfold occupyTurn
  cases v.kind <;> simp [h]

/-- A sample calls no group in GO (R122). -/
theorem sampleTurn_calls_inGo (h : inGo.getLsbD i = true) : (sampleTurn x inGo v).calls.getLsbD i = false := by
  have activation : ∀ u : Detector, (activateTurn inGo u).calls.getLsbD i = false := fun u => by
    unfold activateTurn
    cases u.state with
    | free | faultedOff => exact occupyTurn_calls_inGo inGo u.activated h
    | disabled | occupied | faultedOn => exact BitVec.getLsbD_zero
  have deactivation : ∀ u : Detector, (deactivateTurn u).calls.getLsbD i = false := fun u => by
    unfold deactivateTurn
    cases u.state <;> exact BitVec.getLsbD_zero
  unfold sampleTurn
  dsimp only
  split
  · exact BitVec.getLsbD_zero
  split
  · split
    · exact activation _
    · exact deactivation _
  · exact BitVec.getLsbD_zero

end

/-! ### The records of a sample -/

/-- At most one record of the detector unit's own kinds, or DET_RECOVER and then one (R117, R121, R128). -/
structure DetectorTurn.Orderly (e : DetectorTurn) : Prop where
  block : ∀ r ∈ e.records, r.1.block = .detectorUnit
  length : e.records.length ≤ 2
  order : e.records.Pairwise fun r _ => r.1 = .detRecover

section

variable (x : Bool) (inGo : Mask) (v : Detector)

/-- At most one record of the detector unit's own kinds. -/
theorem occupyTurn_records : (occupyTurn inGo v).records = [] ∨
    ∃ r, r.1.block = .detectorUnit ∧ (occupyTurn inGo v).records = [r] := by
  unfold occupyTurn
  cases v.kind with
  | presence => exact .inr ⟨_, rfl, rfl⟩
  | pulse => exact .inr ⟨_, rfl, rfl⟩
  | count =>
    dsimp only
    split
    · exact .inr ⟨_, rfl, rfl⟩
    · exact .inl rfl
  | off => exact .inl rfl

theorem DetectorTurn.Orderly.of_none {e : DetectorTurn} (h : e.records = []) : e.Orderly :=
  ⟨by simp [h], by simp [h], by simp [h]⟩

theorem DetectorTurn.Orderly.of_one {e : DetectorTurn} {r : EventKind × Word} (hr : r.1.block = .detectorUnit) (h : e.records = [r]) :
    e.Orderly :=
  ⟨by simpa [h] using hr, by simp [h], by simp [h]⟩

theorem activateTurn_orderly : (activateTurn inGo v).Orderly := by
  unfold activateTurn
  cases v.state with
  | free =>
    rcases occupyTurn_records inGo v.activated with h | ⟨r, hr, h⟩
    · exact .of_none h
    · exact .of_one hr h
  | faultedOff =>
    rcases occupyTurn_records inGo v.activated with h | ⟨r, hr, h⟩
    · exact .of_one (r := (.detRecover, 2)) rfl (by rw [DetectorTurn.after_records, h])
    · exact ⟨by simpa [h] using ⟨rfl, hr⟩, by simp [h], by simp [h]⟩
  | disabled | occupied | faultedOn => exact .of_none rfl

theorem deactivateTurn_orderly : (deactivateTurn v).Orderly := by
  unfold deactivateTurn
  cases v.state with
  | occupied =>
    dsimp only
    split
    · exact .of_one (r := (.detFree, _)) rfl rfl
    · exact .of_none rfl
  | faultedOn => exact .of_one (r := (.detRecover, 1)) rfl rfl
  | disabled | free | faultedOff => exact .of_none rfl

theorem sampleTurn_orderly : (sampleTurn x inGo v).Orderly := by
  unfold sampleTurn
  dsimp only
  split
  · exact .of_none rfl
  split
  · split
    · exact activateTurn_orderly inGo _
    · exact deactivateTurn_orderly _
  · exact .of_none rfl

end

/-! ### The whole sample -/

@[simp] theorem Queue.atSample_held (q : Queue) : q.atSample.held = q.held := by
  rcases q.atSample_cases with ⟨-, e⟩ | ⟨-, e⟩ <;> rw [e]

/-- The turns of a sample, by the detectors and the groups before it. -/
def sampleTurns (inputs : BitVec 48) (s : State) (d : DetectorNo) : DetectorTurn :=
  sampleTurn (inputs.getLsbD d.val) s.inGo (s.detector d)

theorem detectorSample_turns {s : State} (h : s.held = false) (inputs : BitVec 48) :
    TurnsTaken (sampleTurns inputs s) (List.finRange 48) (beginSample s) (detectorSample inputs s) := by
  have hsample : detectorSample inputs s = (List.finRange 48).foldl (sampleDetector inputs) (beginSample s) := if_neg (by simp [h])
  rw [hsample]
  refine foldl_turnsTaken (s := beginSample s) (fun u d hu hd => ?_) _ (List.nodup_finRange 48) (.refl _) fun _ _ => rfl
  rw [sampleDetector_eq, hu.inGo, hd]; rfl

theorem sampleTurns_length (inputs : BitVec 48) (s : State) (d : DetectorNo) : (sampleTurns inputs s d).records.length ≤ 2 :=
  (sampleTurn_orderly _ _ _).length

/-- With room for two records of each detector, every record of a sample is held after it. -/
theorem detectorSample_records {s : State} (h : s.held = false) (inputs : BitVec 48) (room : s.queue.held.length ≤ 32) {d : DetectorNo}
    {k : EventKind} {w : Word} (hr : (k, w) ∈ (sampleTurns inputs s d).records) :
    Records (detectorSample inputs s).queue s k (subjectOf d.val) w := by
  have hheld : (beginSample s).queue.held = s.queue.held := Queue.atSample_held _
  exact (detectorSample_turns h inputs).records (sampleTurns_length inputs s) (by rw [hheld]; omega) hr

end Sys2Proof.Machine

/-! PROOFS. The statement of the detector sample: the records of a sample in their order, behind those of an earlier moment, and the filters
(R115, R116, R128). -/

namespace Sys2Proof.Machine

open Sys2Proof

/-! ### The queue after a sample -/

/-- Submissions leave the records held before the moment where they stand. -/
theorem Queue.submit_prefix {q : Queue} {base : List Record} (h : base <+: q.held) (hb : base.length ≤ q.held.length - q.fresh) (c : Said) :
    base <+: (q.submit c.1 c.2.1 c.2.2.1 c.2.2.2).held := by
  have stored : ∀ (rs : List Record) (p : Queue), p.held <+: (rs.foldl Queue.store p).held := fun rs p => by
    obtain ⟨new, hnew, -⟩ := Queue.stores_held rs p
    exact ⟨new, hnew.symm⟩
  show base <+: (q.partWay (q.place (saidRecord c)) (·.store (saidRecord c))).held
  rcases q.place (saidRecord c) with _ | n
  · exact h.trans (stored [saidRecord c] q)
  · have rewound : base <+: (q.rewind (n + 1)).held := by
      rw [Queue.rewind_held]
      exact List.prefix_take_iff.2 ⟨h, by omega⟩
    exact rewound.trans (stored (saidRecord c :: q.late (n + 1)) _)

theorem Queue.submits_prefix (l : List Said) {q : Queue} {base : List Record} (h : base <+: q.held)
    (hb : base.length ≤ q.held.length - q.fresh) : base <+: (q.submits l).held := by
  induction l generalizing q with
  | nil => exact h
  | cons c l ih => exact ih (Queue.submit_prefix h hb c) (by rw [Queue.submit_before]; exact hb)

/-- A submission is not a sample. -/
theorem Queue.submits_sampled (l : List Said) (q : Queue) : (q.submits l).sampled = q.sampled := by
  induction l generalizing q with
  | nil => rfl
  | cons c l ih => rw [Queue.submits_cons, ih, Queue.submit_rest]

/-- The records of a second sample follow all that was submitted before it (R128). -/
theorem Queue.atSample_submits_prefix {q : Queue} (h : q.sampled = true) (l : List Said) : q.held <+: (q.atSample.submits l).held := by
  have hfresh : q.atSample.fresh = 0 := by simp [Queue.atSample, h, Queue.endMoment, Queue.settled]
  exact Queue.submits_prefix l (by simp) (by simp [hfresh])

/-! ### The records of a sample -/

/-- The order of a sample's records: by ascending detector, and DET_RECOVER before the record of its activation (R128). -/
def InDetectorOrder (a b : Said) : Prop := a.2.2.1.toNat < b.2.2.1.toNat ∨ (a.2.2.1 = b.2.2.1 ∧ a.1 = .detRecover)

theorem subjectOf_detector (d : DetectorNo) : (subjectOf d.val).toNat = d.val := by
  have := d.isLt
  rw [subjectOf, BitVec.toNat_ofNat]
  omega

theorem mem_said {e : DetectorTurn} {s : State} {d : DetectorNo} {c : Said} :
    c ∈ e.said s d ↔ ∃ r ∈ e.records, c = (r.1, lowWord s.clock, subjectOf d.val, r.2) := by
  simp only [DetectorTurn.said, List.mem_map, eq_comm]

/-- The records of orderly turns in ascending number of the detectors stand in their order. -/
theorem turnRecords_order {turns : DetectorNo → DetectorTurn} (h : ∀ d, (turns d).Orderly) (s : State) :
    (turnRecords s turns (List.finRange 48)).Pairwise InDetectorOrder := by
  refine List.pairwise_flatMap.2 ⟨fun d _ => ?same, (List.pairwise_lt_finRange 48).imp fun {d e} hlt a ha b hb => ?later⟩
  case same => exact List.pairwise_map.2 ((h d).order.imp fun hr => .inr ⟨rfl, hr⟩)
  case later =>
    obtain ⟨-, -, rfl⟩ := mem_said.1 ha
    obtain ⟨-, -, rfl⟩ := mem_said.1 hb
    refine .inl ?_
    dsimp only
    rw [subjectOf_detector, subjectOf_detector]
    exact hlt

/-- The records of orderly turns are the detector unit's. -/
theorem turnRecords_block {turns : DetectorNo → DetectorTurn} (h : ∀ d, (turns d).Orderly) {s : State} {l : List DetectorNo} {c : Said}
    (hc : c ∈ turnRecords s turns l) : c.1.block = .detectorUnit := by
  obtain ⟨d, -, hd⟩ := List.mem_flatMap.1 hc
  obtain ⟨r, hr, rfl⟩ := mem_said.1 hd
  exact (h d).block r hr

/-- With room the records of a sample are the newest of the detector unit, and every other block's stand as they did (R128, R148). -/
theorem detectorSample_ofBlock {s : State} (h : s.held = false) (inputs : BitVec 48) (room : s.queue.held.length ≤ 32) :
    ∃ new, (detectorSample inputs s).queue.ofBlock .detectorUnit = s.queue.ofBlock .detectorUnit ++ new ∧
      (∀ b, b ≠ .detectorUnit → (detectorSample inputs s).queue.ofBlock b = s.queue.ofBlock b) ∧ new.Pairwise InDetectorOrder := by
  have orderly : ∀ d, (sampleTurns inputs s d).Orderly := fun d => sampleTurn_orderly _ _ _
  have hlen := turnRecords_length (sampleTurns_length inputs s) (beginSample s)
  have hblock : ∀ b, s.queue.atSample.ofBlock b = s.queue.ofBlock b := fun b => by
    rw [Queue.ofBlock, Queue.contents, Queue.atSample_held]; rfl
  have hof : ∀ b, (detectorSample inputs s).queue.ofBlock b = s.queue.ofBlock b ++
      (turnRecords (beginSample s) (sampleTurns inputs s) (List.finRange 48)).filter fun c => c.1.block = b := fun b => by
    rw [(detectorSample_turns h inputs).queue, ← hblock b]
    refine Queue.submits_ofBlock _ ?_ b
    show s.queue.atSample.held.length + _ ≤ 128
    rw [Queue.atSample_held]; omega
  refine ⟨turnRecords (beginSample s) (sampleTurns inputs s) (List.finRange 48), ?_, fun b hb => ?_, turnRecords_order orderly _⟩
  · rw [hof, List.filter_eq_self.2 fun c hc => decide_eq_true (turnRecords_block orderly hc)]
  · have none : (turnRecords (beginSample s) (sampleTurns inputs s) (List.finRange 48)).filter (fun c => decide (c.1.block = b)) = [] :=
      List.filter_eq_nil_iff.2 fun c hc => by rw [turnRecords_block orderly hc]; simpa using hb.symm
    rw [hof, none, List.append_nil]

/-! ### The statement -/

/-- Settles O28: a sample is the turns of all the detectors, each by its own record before the sample. -/
theorem detectorSampleFiltersTheInputs : Obligations.DetectorSampleFiltersTheInputs := by
  intro s inputs
  refine ⟨fun h => congrArg Host.Outcome.next (if_pos h), fun h => ?_⟩
  have turns := detectorSample_turns h inputs
  refine ⟨_, rfl, (detectorSample_at h inputs 0).1, ?_, fun hs => ?_, detectorSample_ofBlock h inputs, fun d => ?_⟩
  · rw [turns.queue, Queue.submits_sampled]; rfl
  · rw [turns.queue]
    exact Queue.atSample_submits_prefix hs _
  · intro v x
    rw [turns.all d]
    refine ⟨fun hk => ?_, fun hk hx => ?_, fun hk hx hr => ?_, fun hk hx hr => ?_⟩
    · exact congrArg _ (sampleTurn_off hk)
    · exact congrArg _ (sampleTurn_level hk hx)
    · exact congrArg _ (sampleTurn_run hk hx hr)
    · have change : sampleTurns inputs s d = _ := sampleTurn_change hk hx hr
      rw [change]
      split
      · exact activateTurn_levels s.inGo { v with raw := x, level := x, run := 0 }
      · exact deactivateTurn_levels { v with raw := x, level := x, run := 0 }

end Sys2Proof.Machine

/-! PROOFS. The statements of the activation and of the deactivation (R117 to R119, R121, R122). -/

namespace Sys2Proof.Machine

open Sys2Proof

/-- The detector as a change of its filtered level leaves it before the activation or the deactivation (R116). -/
def Detector.changed (v : Detector) (x : Bool) : Detector := { v with raw := x, level := x, run := 0 }

section

variable {s : State} {d : DetectorNo} {inputs : BitVec 48}

theorem sampleTurns_activates (hk : (s.detector d).kind ≠ .off) (hl : (s.detector d).level = false) (hx : inputs.getLsbD d.val = true)
    (hr : (s.detector d).onFilter.toNat < (s.detector d).run + 1) :
    sampleTurns inputs s d = activateTurn s.inGo ((s.detector d).changed true) := by
  rw [sampleTurns, hx]
  exact sampleTurn_change hk (by simp [hl]) (by rw [Detector.filter, hl]; exact hr)

theorem sampleTurns_deactivates (hk : (s.detector d).kind ≠ .off) (hl : (s.detector d).level = true) (hx : inputs.getLsbD d.val = false)
    (hr : (s.detector d).offFilter.toNat < (s.detector d).run + 1) :
    sampleTurns inputs s d = deactivateTurn ((s.detector d).changed false) := by
  rw [sampleTurns, hx]
  exact sampleTurn_change hk (by simp [hl]) (by rw [Detector.filter, hl]; exact hr)

theorem State.inGo_getLsbD (s : State) (g : GroupNo) : s.inGo.getLsbD g.val = decide ((s.group g).state = .go) := maskOf_getLsbD _ g

/-- An activation from FREE calls each group that its detector maps and that is not in GO (R122). -/
theorem occupyTurn_calls {v : Detector} {g : GroupNo} (hk : v.kind = .presence ∨ v.kind = .pulse) (hm : v.callMask.getLsbD g.val = true)
    (hgo : (s.group g).state ≠ .go) : (occupyTurn s.inGo v).calls.getLsbD g.val = true := by
  have hmapped : v.mapped.getLsbD g.val = true := (Detector.mapped_getLsbD _ _).2 ⟨hk, hm⟩
  rw [occupyTurn_maps _ hk]
  show (v.mapped &&& ~~~s.inGo).getLsbD g.val = true
  rw [BitVec.getLsbD_and, BitVec.getLsbD_not, hmapped, State.inGo_getLsbD, decide_eq_false hgo, decide_eq_true g.isLt]; rfl

/-- A sample calls neither a group in GO nor one that is not configured (R122, R125). -/
theorem detectorSample_calls (hs : s.held = false) (inputs : BitVec 48) {g : GroupNo}
    (hg : (s.group g).state = .go ∨ s.configured g = false) :
    (detectorSample inputs s).detectors.calls.getLsbD g.val = s.detectors.calls.getLsbD g.val := by
  rw [(detectorSample_turns hs inputs).calls g]
  have none : ((List.finRange 48).any (fun d => (sampleTurns inputs s d).calls.getLsbD g.val) && s.configured g) = false := by
    rcases hg with hg | hg
    · have hgo : s.inGo.getLsbD g.val = true := by rw [State.inGo_getLsbD]; exact decide_eq_true hg
      rw [List.any_eq_false.2 fun d _ => by rw [sampleTurns, sampleTurn_calls_inGo _ _ _ hgo]; simp, Bool.false_and]
    · rw [hg, Bool.and_false]
  show (s.detectors.calls.getLsbD g.val || (_ && s.configured g)) = _
  rw [none, Bool.or_false]

end

/-- Settles O29: the detector's turn is an activation, by its state and kind. -/
theorem activationActsByKindAndState : Obligations.ActivationActsByKindAndState := by
  intro s d inputs v hs hk hl hx hr
  have turns := detectorSample_turns hs inputs
  have activates : sampleTurns inputs s d = activateTurn s.inGo (v.changed true) := sampleTurns_activates hk hl hx hr
  have changes : levelChanges d inputs s = true :=
    levelChanges_eq_true hs hk (by rw [hx, hl]; decide) (by rw [Detector.filter, hl]; exact hr)
  have detector := (turns.all d).trans (congrArg DetectorTurn.detector activates)
  refine ⟨detectorSample inputs s, congrArg Host.Outcome.next (if_pos ⟨changes, hx⟩), rfl, fun hfree hoff => ?stays,
    fun hstate => ?occupies, fun g hg => turns.calls_kept hg, fun g hg => detectorSample_calls hs inputs hg⟩
  case stays => rw [detector, activateTurn_stays (v := v.changed true) _ hfree hoff]; rfl
  case occupies =>
    obtain ⟨hdetector, hcalls, hrecords⟩ := activateTurn_occupies s.inGo (v := v.changed true) hstate
    rw [hdetector] at detector
    have held : s.queue.held.length ≤ 32 → ∀ k w, (k, w) ∈ (occupyTurn s.inGo (v.changed true).activated).records →
        Records (detectorSample inputs s).queue s k (subjectOf d.val) w := fun room k w hr =>
      detectorSample_records hs inputs room (by rw [activates]; exact hrecords _ hr)
    refine ⟨fun hmaps => ?maps, fun hcount hn => ?counts, fun hcount hn => ?reaches, fun hoff room => ?recovers⟩
    case maps =>
      have occupies := occupyTurn_maps s.inGo (v := (v.changed true).activated) hmaps
      refine ⟨by rw [detector, occupies]; rfl, fun g hmask hconfigured hgo => ?_, fun room => held room _ _ ?_⟩
      · refine turns.called (d := d) ?_ hconfigured
        rw [activates, hcalls]
        exact occupyTurn_calls (v := (v.changed true).activated) hmaps hmask hgo
      · rw [occupies]
        exact List.mem_cons_self
    case counts => rw [detector, occupyTurn_counts s.inGo (v := (v.changed true).activated) hcount hn]; rfl
    case reaches =>
      have occupies := occupyTurn_reaches s.inGo (v := (v.changed true).activated) hcount hn
      have completes : countCompletes d inputs s = true := by
        have hacc : (accumulate v).2 = true := by rw [accumulate, if_pos hn]
        rw [countCompletes, changes, hx, hacc, decide_eq_true hcount, decide_eq_true hstate]; rfl
      refine ⟨by rw [detector, occupies]; rfl, congrArg Host.Outcome.next (if_pos completes), fun room => held room _ _ ?_⟩
      rw [occupies]
      exact List.mem_cons_self
    case recovers => exact detectorSample_records hs inputs room (by rw [activates]; exact activateTurn_recovers s.inGo hoff)

/-- Settles O30: the detector's turn is a deactivation, by its state and kind. -/
theorem deactivationActsByKindAndState : Obligations.DeactivationActsByKindAndState := by
  intro s d inputs v hs hk hl hx hr
  have turns := detectorSample_turns hs inputs
  have deactivates : sampleTurns inputs s d = deactivateTurn (v.changed false) := sampleTurns_deactivates hk hl hx hr
  have changes : levelChanges d inputs s = true :=
    levelChanges_eq_true hs hk (by rw [hx, hl]; decide) (by rw [Detector.filter, hl]; exact hr)
  have detector := (turns.all d).trans (congrArg DetectorTurn.detector deactivates)
  have held : s.queue.held.length ≤ 32 → ∀ k w, (k, w) ∈ (deactivateTurn (v.changed false)).records →
      Records (detectorSample inputs s).queue s k (subjectOf d.val) w := fun room k w hr =>
    detectorSample_records hs inputs room (by rw [deactivates]; exact hr)
  refine ⟨detectorSample inputs s, congrArg Host.Outcome.next (if_pos ⟨changes, hx⟩), rfl, fun hst => ?occupied, fun hst => ?faultedOn,
    fun hocc hfault => ?stays, fun g hg => turns.calls_kept hg⟩
  case occupied =>
    have turn := deactivateTurn_occupied (v := v.changed false) hst
    refine ⟨by rw [detector, turn]; rfl, fun hp room => held room _ _ ?_⟩
    rw [turn]
    show _ ∈ if v.kind = .presence then _ else _
    rw [if_pos hp]
    exact List.mem_cons_self
  case faultedOn =>
    have turn := deactivateTurn_faultedOn (v := v.changed false) hst
    refine ⟨by rw [detector, turn]; rfl, fun room => held room _ _ ?_⟩
    rw [turn]
    exact List.mem_cons_self
  case stays => rw [detector, deactivateTurn_stays (v := v.changed false) hocc hfault]; rfl

end Sys2Proof.Machine

/-! PROOFS. The statement of the detector step: the stuck timers and the stuck faults (R119, R120, R123). -/

namespace Sys2Proof.Machine

open Sys2Proof

/-! ### The turns of a step -/

/-- A detector's part of a step (R119, R120). -/
def stuckTurn (v : Detector) : DetectorTurn :=
  let u := advanceDetector v
  if pastStuckOn v then ⟨{ u with state := .faultedOn }, [(.detFault, 1)], v.mapped⟩
  else if pastStuckOff v then ⟨{ u with state := .faultedOff }, [(.detFault, 2)], v.mapped⟩
  else .stay u

theorem setDetector_enterStuck (s : State) (d : DetectorNo) (v : Detector) (st : DetectorState) (w : Word) :
    enterStuck d st w (s.setDetector d v) = s.takeTurn d ⟨{ v with state := st }, [(.detFault, w)], v.mapped⟩ := by
  unfold enterStuck
  simp only [State.setDetector_detector_self, setDetector_setDetector]
  exact setCalls_submitDetector_setDetector s d { v with state := st } _ _ _

theorem stepDetector_eq (s : State) (d : DetectorNo) : stepDetector s d = s.takeTurn d (stuckTurn (s.detector d)) := by
  unfold stepDetector stuckTurn
  dsimp only
  split
  · exact setDetector_enterStuck s d _ _ _
  split
  · exact setDetector_enterStuck s d _ _ _
  · exact (takeTurn_stay s d _).symm

theorem stuckTurn_length (v : Detector) : (stuckTurn v).records.length ≤ 1 := by
  unfold stuckTurn
  dsimp only
  split
  · exact le_rfl
  split
  · exact le_rfl
  · exact Nat.zero_le _

section

variable {v : Detector}

theorem pastStuckOn_iff : pastStuckOn v = true ↔
    v.state = .occupied ∧ v.stuckOn ≠ 0 ∧ v.stuckOn.toNat * 600 + 1 ≤ (advanceDetector v).occupancy := by
  simp only [pastStuckOn, Bool.and_eq_true, decide_eq_true_eq, and_assoc]; rfl

theorem pastStuckOff_iff : pastStuckOff v = true ↔
    v.state = .free ∧ v.stuckOff ≠ 0 ∧ v.stuckOff.toNat * 600 + 1 ≤ (advanceDetector v).gap := by
  simp only [pastStuckOff, Bool.and_eq_true, decide_eq_true_eq, and_assoc]; rfl

theorem stuckTurn_on (h : pastStuckOn v = true) :
    stuckTurn v = ⟨{ advanceDetector v with state := .faultedOn }, [(.detFault, 1)], v.mapped⟩ := if_pos h

/-- A detector past its stuck-off limit is in FREE, and so not past its stuck-on limit (R119, R120). -/
theorem not_pastStuckOn_of_pastStuckOff (h : pastStuckOff v = true) : ¬pastStuckOn v = true := fun hon => by
  have free := (pastStuckOff_iff.1 h).1
  rw [(pastStuckOn_iff.1 hon).1] at free
  cases free

theorem stuckTurn_off (h : pastStuckOff v = true) :
    stuckTurn v = ⟨{ advanceDetector v with state := .faultedOff }, [(.detFault, 2)], v.mapped⟩ := by
  rw [stuckTurn, if_neg (not_pastStuckOn_of_pastStuckOff h), if_pos h]

theorem stuckTurn_none (hon : ¬pastStuckOn v = true) (hoff : ¬pastStuckOff v = true) : stuckTurn v = .stay (advanceDetector v) := by
  rw [stuckTurn, if_neg hon, if_neg hoff]

end

/-! ### The whole step -/

/-- The state as the step begins: the detector unit's part of the event is taken. -/
def stepTaken (s : State) : State := { s with parts := { s.parts with detectors := false } }

theorem detectorStep_turns {s : State} (h : s.parts.detectors = true) :
    TurnsTaken (fun d => stuckTurn (s.detector d)) (List.finRange 48) (stepTaken s) (detectorStep s) := by
  have hstep : detectorStep s = (List.finRange 48).foldl stepDetector (stepTaken s) := if_pos h
  rw [hstep]
  refine foldl_turnsTaken (s := stepTaken s) (fun u d _ hd => ?_) _ (List.nodup_finRange 48) (.refl _) fun _ _ => rfl
  rw [stepDetector_eq, hd]; rfl

/-- A detector that faults in a step calls every configured group it maps (R123). -/
theorem detectorStep_called {s : State} (h : s.parts.detectors = true) {d : DetectorNo}
    (hcalls : (stuckTurn (s.detector d)).calls = (s.detector d).mapped) {g : GroupNo}
    (hkind : (s.detector d).kind = .presence ∨ (s.detector d).kind = .pulse) (hmask : (s.detector d).callMask.getLsbD g.val = true)
    (hg : s.configured g = true) : (detectorStep s).detectors.calls.getLsbD g.val = true :=
  (detectorStep_turns h).called (d := d) (by rw [hcalls]; exact (Detector.mapped_getLsbD _ _).2 ⟨hkind, hmask⟩) hg

/-- With room for one record of each detector, every record of a step is held after it. -/
theorem detectorStep_records {s : State} (h : s.parts.detectors = true) (room : s.queue.held.length ≤ 80) {d : DetectorNo}
    {r : EventKind × Word} (hr : (stuckTurn (s.detector d)).records = [r]) :
    Records (detectorStep s).queue s r.1 (subjectOf d.val) r.2 := by
  refine (detectorStep_turns h).records (n := 1) (fun d => stuckTurn_length _) ?_ (d := d) (by rw [hr]; exact List.mem_cons_self)
  show s.queue.held.length + _ ≤ 128
  omega

/-- Settles O31: a step is the turns of all the detectors, each by its own record before the step. -/
theorem detectorStepFindsStuckDetectors : Obligations.DetectorStepFindsStuckDetectors := by
  intro s
  refine ⟨fun h => congrArg Host.Outcome.next (if_neg (by simp [h])), fun h => ?_⟩
  have turns := detectorStep_turns h
  refine ⟨detectorStep s, rfl, turns.move, fun d => ⟨fun hon hoff => ?none, fun hon => ?on, fun hoff => ?off⟩⟩
  case none =>
    rw [turns.all d]
    exact congrArg _ (stuckTurn_none (mt pastStuckOn_iff.1 hon) (mt pastStuckOff_iff.1 hoff))
  case on =>
    have past := pastStuckOn_iff.2 hon
    have turn := stuckTurn_on past
    exact ⟨(turns.all d).trans (congrArg _ turn), fun g hk hm hg => detectorStep_called h (congrArg _ turn) hk hm hg,
      congrArg Host.Outcome.next (if_pos past), fun room => detectorStep_records h room (congrArg _ turn)⟩
  case off =>
    have past := pastStuckOff_iff.2 hoff
    have turn := stuckTurn_off past
    exact ⟨(turns.all d).trans (congrArg _ turn), fun g hk hm hg => detectorStep_called h (congrArg _ turn) hk hm hg,
      congrArg Host.Outcome.next (if_pos past), fun room => detectorStep_records h room (congrArg _ turn)⟩

end Sys2Proof.Machine

/-! PROOFS. The used sign records as the frame and the channels look for them (R130): searches for the first of them. -/

namespace Sys2Proof.Machine

open Sys2Proof

/-- A search of an ascending range finds its least member that meets the test. -/
theorem find?_finRange_eq_some {n : Nat} {p : Fin n → Bool} {r : Fin n} (hr : p r = true) (least : ∀ q, q < r → ¬p q = true) :
    (List.finRange n).find? p = some r := by
  have h := ((find?_finRange_isLeast p).some_iff r.val).2
    ⟨⟨r, rfl, hr⟩, fun _ hk ⟨q, hq, hp⟩ => least q (by rw [hq] at hk; exact hk) hp⟩
  obtain ⟨q, hq, e⟩ := Option.map_eq_some_iff.1 h
  rw [hq, Fin.ext e]

section

variable {s : State} {r : SignNo}

theorem signUsed_iff : s.signUsed r = true ↔ s.store.nv.valid = true ∧ (s.active.signs.get r).used = true := by
  simp [State.signUsed, State.signRecord]

theorem mem_usedSigns : r ∈ usedSigns s ↔ s.signUsed r = true := by simp [usedSigns]

/-- A used record's address is 1 to 16 (R130). -/
theorem signUsed_address (h : s.signUsed r = true) : 1 ≤ (s.signRecord r).address.toNat ∧ (s.signRecord r).address.toNat ≤ 16 := by
  have used : (s.signRecord r).used = true := (signUsed_iff.1 h).2
  simpa [SignRecord.used] using used

theorem covers_iff {x : SignRecord} {c : Nat} : x.covers c = true ↔ x.start.toNat ≤ c ∧ c < x.start.toNat + x.span.toNat := by
  simp [SignRecord.covers]

theorem find?_usedSigns_eq_some {p : SignNo → Bool} (hu : s.signUsed r = true) (hp : p r = true)
    (first : ∀ q, q < r → s.signUsed q = true → ¬p q = true) : (usedSigns s).find? p = some r := by
  rw [usedSigns, List.find?_filter]
  exact find?_finRange_eq_some (decide_eq_true ⟨hu, hp⟩) fun q hq h => first q hq (of_decide_eq_true h).1 (of_decide_eq_true h).2

theorem find?_usedSigns_eq_none {p : SignNo → Bool} (h : ∀ r, s.signUsed r = true → ¬p r = true) : (usedSigns s).find? p = none :=
  List.find?_eq_none.2 fun r hr => h r (mem_usedSigns.1 hr)

theorem usedSigns_isEmpty (h : ∀ r, ¬s.signUsed r = true) : (usedSigns s).isEmpty = true :=
  List.isEmpty_iff.2 (List.eq_nil_iff_forall_not_mem.2 fun r hr => h r (mem_usedSigns.1 hr))

theorem usedSigns_not_isEmpty (h : s.signUsed r = true) : ¬(usedSigns s).isEmpty = true := fun e =>
  absurd (mem_usedSigns.2 h) (List.isEmpty_iff.1 e ▸ List.not_mem_nil)

end

end Sys2Proof.Machine

/-! PROOFS. The statement of the channel byte: the value of a channel by its binding (R132, R133, R134). -/

namespace Sys2Proof.Machine

open Sys2Proof

theorem imageValue_channel (s : State) (c : Fin 128) : imageValue s c.val = s.link.image.get c := dif_pos c.isLt

theorem boundGroup_subjectOf {x : SignRecord} {g : GroupNo} (h : x.bound = subjectOf g.val) : x.boundGroup = some g := by
  have number : x.bound.toNat = g.val := by rw [h, subjectOf, BitVec.toNat_ofNat, Nat.mod_eq_of_lt (by omega)]
  simp [SignRecord.boundGroup, number]

theorem subjectOf_group_ne_absent (g : GroupNo) : subjectOf g.val ≠ 0xFF := by
  revert g; decide

section

variable {s : State} {r : SignNo} {c : Nat}

/-- A channel in no used record's span carries its image value. -/
theorem channelValue_uncovered (h : ∀ r, s.signUsed r = true → ¬(s.signRecord r).covers c = true) : channelValue s c = imageValue s c := by
  rw [channelValue, find?_usedSigns_eq_none h]

/-- A channel in a used record's span carries what the record's binding says. -/
theorem channelValue_covered (hu : s.signUsed r = true) (hc : (s.signRecord r).covers c = true)
    (first : ∀ q, q < r → s.signUsed q = true → ¬(s.signRecord q).covers c = true) :
    channelValue s c = if (s.signRecord r).bound = 0xFF ∨ conditionHolds s (s.signRecord r) = true then imageValue s c
      else (s.signRecord r).safe := by
  rw [channelValue, find?_usedSigns_eq_some (p := fun r => (s.signRecord r).covers c) hu hc first, ite_or]

theorem conditionHolds_iff {x : SignRecord} {g : GroupNo} (h : x.bound = subjectOf g.val) :
    conditionHolds s x = true ↔ (s.group g).state = if x.whenStop then .stop else .go := by
  simp [conditionHolds, boundGroup_subjectOf h]

end

/-- Once the groups have moved, the next channel byte of a frame goes onto the line. -/
theorem channelByteStart_sends {s : State} {f : Frame} {c : Nat} {b : Byte} (moved : s.parts.groupsMoved = true)
    (frame : s.link.frame = some f) (sent : s.link.line.length = 4 + c) (left : c < f.count) (value : channelValue s c = b) :
    exec .channelByteStart s = .next { s with link := { s.link with line := s.link.line ++ [b] } } := by
  have next : nextChannel s = c := by rw [nextChannel, sent, Nat.add_sub_cancel_left]
  subst value
  refine congrArg Host.Outcome.next ?_
  simp only [channelByteStart, frame, next, moved, left, and_self, if_true]

theorem groupsMoved_eq_false {p : EventParts}
    (h : p.sequencer = true ∨ p.arbiter = true ∨ p.modeTimer = true ∨ p.liveness = true ∨ p.hold0 = true ∨ p.hold1 = true ∨
      p.switch = true ∨ p.lamps = true) : p.groupsMoved = false := by
  rw [EventParts.groupsMoved, Bool.not_eq_false']
  simpa only [Bool.or_eq_true, or_assoc] using h

/-- Settles O33: the first used record whose span covers the channel decides its value. -/
theorem channelByteFollowsTheBinding : Obligations.ChannelByteFollowsTheBinding := by
  refine ⟨fun s due => congrArg Host.Outcome.next (channelByteStart_waits (groupsMoved_eq_false due)), ?_⟩
  intro s f c moved frame sent left used sends covers
  have send : ∀ {b}, channelValue s c.val = b → sends b := channelByteStart_sends moved frame sent left
  have apart : ∀ q, (used q → ¬covers q) → s.signUsed q = true → ¬(s.signRecord q).covers c.val = true :=
    fun q h hq hc => h (signUsed_iff.1 hq) (covers_iff.1 hc)
  refine ⟨fun uncovered => send ?uncovered, fun r hu hc first => ?_⟩
  case uncovered => rw [channelValue_uncovered fun r => apart r (uncovered r), imageValue_channel]
  have value := channelValue_covered (signUsed_iff.2 hu) (covers_iff.2 hc) fun q hq => apart q (first q hq)
  rw [imageValue_channel] at value
  refine ⟨fun unbound => send ?unbound, fun g bound => send ?bound⟩
  case unbound => exact value.trans (if_pos (.inl unbound))
  case bound =>
    have named : ¬(s.signRecord r).bound = 0xFF := fun e => subjectOf_group_ne_absent g (bound.symm.trans e)
    have condition := conditionHolds_iff (s := s) (x := s.signRecord r) bound
    simp only [named, false_or, condition] at value
    exact value

end Sys2Proof.Machine

/-! PROOFS. The statement of the reply window, and the check of a sequence followed by its own CHECK (R135, R137). -/

namespace Sys2Proof.Machine

open Sys2Proof

/-! ### The check -/

theorem crcBit_eq (reg : Word) (b : Bool) :
    crcBit reg b = if reg.getLsbD 15 = b then reg <<< 1 else (reg <<< 1) ^^^ 0x1021 := by
  unfold crcBit
  by_cases h : reg.getLsbD 15 = b
  · rw [if_pos h, if_neg (by rw [h, bne_self_eq_false]; exact Bool.false_ne_true)]
    exact BitVec.xor_zero
  · rw [if_neg h, if_pos (bne_iff_ne.2 h)]

/-- A data bit equal to the top bit of a register shifts it on. -/
theorem crcBit_shiftLeft {reg : Word} {b : Bool} {k : Nat} (hk : k ≤ 15) (hb : b = reg.getLsbD (15 - k)) :
    crcBit (reg <<< k) b = reg <<< (k + 1) := by
  have top : (reg <<< k).getLsbD 15 = b := by
    rw [BitVec.getLsbD_shiftLeft, hb, decide_eq_false (Nat.not_lt.2 hk)]; rfl
  rw [crcBit_eq, if_pos top, ← BitVec.shiftLeft_add]

/-- Data bits equal to the top `n` bits of a register, in descending order, shift it out by as many places. -/
theorem foldl_crcBit_shiftLeft {reg : Word} {bit : Nat → Bool} : ∀ (n k : Nat), k + n ≤ 16 →
    (∀ i, i < n → bit i = reg.getLsbD (16 - k - n + i)) →
    (List.range n).reverse.foldl (fun u i => crcBit u (bit i)) (reg <<< k) = reg <<< (k + n)
  | 0, _, _, _ => rfl
  | n + 1, k, hk, hb => by
    have top : bit n = reg.getLsbD (15 - k) := by rw [hb n n.lt_succ_self]; congr 1; omega
    rw [List.range_succ, List.reverse_append, List.reverse_singleton, List.singleton_append, List.foldl_cons,
      crcBit_shiftLeft (by omega) top, foldl_crcBit_shiftLeft n (k + 1) (by omega) fun i hi => ?_, Nat.add_right_comm k 1 n,
      Nat.add_assoc]
    rw [hb i (by omega)]; congr 1; omega

theorem crcByte_highByte (reg : Word) : crcByte reg (highByte reg) = reg <<< 8 := by
  have h := foldl_crcBit_shiftLeft (reg := reg) (bit := (highByte reg).getLsbD) 8 0 (by decide) fun i hi => by
    simp [highByte, hi]
  rwa [BitVec.shiftLeft_zero] at h

theorem crcByte_lowByte (reg : Word) : crcByte (reg <<< 8) (lowByte reg) = 0 := by
  have h := foldl_crcBit_shiftLeft (reg := reg) (bit := (lowByte reg).getLsbD) 8 8 (by decide) fun i hi => by
    simp [lowByte, hi]
  exact h.trans (BitVec.shiftLeft_eq_zero (by decide))

/-- Any sequence followed by its own CHECK checks to 0 (R137). -/
theorem crc_append_check (bytes : List Byte) : crc (bytes ++ [highByte (crc bytes), lowByte (crc bytes)]) = 0 := by
  calc crc (bytes ++ [highByte (crc bytes), lowByte (crc bytes)])
      = crcByte (crcByte (crc bytes) (highByte (crc bytes))) (lowByte (crc bytes)) := List.foldl_append
    _ = 0 := by rw [crcByte_highByte, crcByte_lowByte]

/-! ### The reply window -/

theorem openWindow_frame_sent {s : State} {f : Frame} (frame : s.link.frame = some f) (sent : s.link.line.length = 4 + f.count) :
    openWindow s = { s with
      link := { s.link with line := s.link.line ++ checkBytes s.link.line, frame := none, windowOpen := s.link.poll.isSome }
      queue := s.queue.endMoment } := by
  have last : nextChannel s = f.count := by rw [nextChannel, sent, Nat.add_sub_cancel_left]
  simp only [openWindow, frame, last, if_true]

/-- Settles O34: the CHECK of a sequence shifts the register that made it out to 0. -/
theorem replyWindowOpensAfterCheck : Obligations.ReplyWindowOpensAfterCheck :=
  ⟨fun _ _ frame sent => congrArg Host.Outcome.next (openWindow_frame_sent frame sent), rfl, crcBit_eq, crc_append_check⟩

end Sys2Proof.Machine

/-! PROOFS. The statement of the frame event: COUNT, the address polled and the record that holds it (R136, R138). -/

namespace Sys2Proof.Machine

open Sys2Proof

section

variable {s : State} {r : SignNo}

/-! ### COUNT -/

/-- COUNT is the largest end of a used record's span (R136). -/
theorem frameCount_eq {n : Nat} (upper : ∀ r, s.signUsed r = true → (s.signRecord r).start.toNat + (s.signRecord r).span.toNat ≤ n)
    (reached : ∃ r, s.signUsed r = true ∧ (s.signRecord r).start.toNat + (s.signRecord r).span.toNat = n) : frameCount s = n := by
  obtain ⟨r, hr, hn⟩ := reached
  have largest : (0 :: (usedSigns s).map fun r => (s.signRecord r).start.toNat + (s.signRecord r).span.toNat).max? = some n := by
    refine List.max?_eq_some_iff.2 ⟨List.mem_cons_of_mem 0 (List.mem_map.2 ⟨r, mem_usedSigns.2 hr, hn⟩), fun b hb => ?_⟩
    rcases List.mem_cons.1 hb with rfl | hb
    · exact Nat.zero_le n
    · obtain ⟨q, hq, rfl⟩ := List.mem_map.1 hb
      exact upper q (mem_usedSigns.1 hq)
  rw [List.max?_cons', List.foldl_map] at largest
  exact Option.some.inj largest

/-! ### The address polled -/

/-- The addresses of the used records above the cursor. -/
def addressesAbove (s : State) (cursor : Nat) : List Nat :=
  ((usedSigns s).map fun r => (s.signRecord r).address.toNat).filter (cursor < ·)

theorem mem_addressesAbove {cursor a : Nat} :
    a ∈ addressesAbove s cursor ↔ (∃ r, s.signUsed r = true ∧ (s.signRecord r).address.toNat = a) ∧ cursor < a := by
  simp [addressesAbove, mem_usedSigns]

theorem foldl_some_min (xs : List Nat) : ∀ x,
    xs.foldl (fun (best : Option Nat) a => some (best.elim a (min a))) (some x) = some (xs.foldl min x) := by
  induction xs with
  | nil => exact fun _ => rfl
  | cons a xs ih =>
    intro x
    rw [List.foldl_cons, List.foldl_cons, Nat.min_comm x a]
    exact ih _

theorem foldl_min_eq_min? (xs : List Nat) : xs.foldl (fun (best : Option Nat) a => some (best.elim a (min a))) none = xs.min? := by
  cases xs with
  | nil => rfl
  | cons x xs => rw [List.min?_cons']; exact foldl_some_min xs x

/-- The search for the smallest used address above the cursor finds the least of them. -/
theorem addressAbove_eq_min? (s : State) (cursor : Nat) : addressAbove s cursor = (addressesAbove s cursor).min? := by
  rw [← foldl_min_eq_min?, addressesAbove, List.foldl_filter, List.foldl_map, addressAbove]
  congr 1
  funext best r
  by_cases h : cursor < (s.signRecord r).address.toNat
  · cases best <;> simp [h]
  · simp [h]

theorem addressAbove_eq_some {cursor : Nat} (hr : s.signUsed r = true) (above : cursor < (s.signRecord r).address.toNat)
    (least : ∀ q, s.signUsed q = true → cursor < (s.signRecord q).address.toNat →
      (s.signRecord r).address.toNat ≤ (s.signRecord q).address.toNat) :
    addressAbove s cursor = some (s.signRecord r).address.toNat := by
  rw [addressAbove_eq_min?, List.min?_eq_some_iff]
  refine ⟨mem_addressesAbove.2 ⟨⟨r, hr, rfl⟩, above⟩, fun a ha => ?_⟩
  obtain ⟨⟨q, hq, rfl⟩, hlt⟩ := mem_addressesAbove.1 ha
  exact least q hq hlt

theorem addressAbove_eq_none {cursor : Nat} (h : ∀ q, s.signUsed q = true → (s.signRecord q).address.toNat ≤ cursor) :
    addressAbove s cursor = none := by
  rw [addressAbove_eq_min?, List.min?_eq_none_iff, List.eq_nil_iff_forall_not_mem]
  intro a ha
  obtain ⟨⟨q, hq, rfl⟩, hlt⟩ := mem_addressesAbove.1 ha
  exact absurd (h q hq) (Nat.not_le.2 hlt)

/-- The address polled is the next used one above the cursor, and the smallest used one where none is above it (R138). -/
theorem nextAddress_eq (hr : s.signUsed r = true)
    (next : (s.link.cursor.toNat < (s.signRecord r).address.toNat ∧
        ∀ q, s.signUsed q = true → s.link.cursor.toNat < (s.signRecord q).address.toNat →
          (s.signRecord r).address.toNat ≤ (s.signRecord q).address.toNat) ∨
      ((∀ q, s.signUsed q = true → (s.signRecord q).address.toNat ≤ s.link.cursor.toNat) ∧
        ∀ q, s.signUsed q = true → (s.signRecord r).address.toNat ≤ (s.signRecord q).address.toNat)) :
    nextAddress s = (s.signRecord r).address.toNat := by
  rcases next with ⟨above, least⟩ | ⟨below, least⟩
  · rw [nextAddress, addressAbove_eq_some hr above least]; rfl
  · rw [nextAddress, addressAbove_eq_none below, addressAbove_eq_some hr (signUsed_address hr).1 fun q hq _ => least q hq]; rfl

/-! ### The frame -/

/-- No used record holds the address 0 (R130). -/
theorem recordOf_zero (s : State) : recordOf s 0 = none :=
  find?_usedSigns_eq_none fun r hr e => absurd (signUsed_address hr).1 (by rw [of_decide_eq_true e]; decide)

theorem recordOf_address (hr : s.signUsed r = true)
    (first : ∀ q, q < r → s.signUsed q = true → (s.signRecord q).address ≠ (s.signRecord r).address) :
    recordOf s (s.signRecord r).address = some r :=
  find?_usedSigns_eq_some hr (decide_eq_true rfl) fun q hq hu e => first q hq hu (of_decide_eq_true e)

/-- A frame that polls no address leaves the cursor and creates no poll (R138). -/
theorem beginFrame_zero (poll : s.link.poll = none) : beginFrame 0 s = { s with link := { s.link with
    sequence := s.link.sequence + 1, windowOpen := false
    frame := some ⟨s.link.sequence, 0, frameCount s⟩, line := [0xC3, s.link.sequence, 0, BitVec.ofNat 8 (frameCount s)] } } := by
  have unpolled : recordOf s (BitVec.ofNat 8 0) = none := recordOf_zero s
  simp [beginFrame, unpolled, poll]

/-- A frame that polls a used address takes it for the cursor and for the poll in flight (R138). -/
theorem beginFrame_address (hr : s.signUsed r = true)
    (first : ∀ q, q < r → s.signUsed q = true → (s.signRecord q).address ≠ (s.signRecord r).address) :
    beginFrame (s.signRecord r).address.toNat s = { s with link := { s.link with
      sequence := s.link.sequence + 1, cursor := (s.signRecord r).address, windowOpen := false
      poll := some ⟨r, (s.signRecord r).address, s.link.sequence, false⟩
      frame := some ⟨s.link.sequence, (s.signRecord r).address, frameCount s⟩
      line := [0xC3, s.link.sequence, (s.signRecord r).address, BitVec.ofNat 8 (frameCount s)] } } := by
  have polled : (s.signRecord r).address.toNat ≠ 0 := Nat.pos_iff_ne_zero.1 (signUsed_address hr).1
  simp [beginFrame, polled, recordOf_address hr first]

/-- The state as a frame event goes on: no later one is the first after a reset (R138). -/
def State.firstTaken (s : State) : State := { s with link := { s.link with firstFrame := false } }

theorem frameEvent_unused (poll : s.link.poll = none) (h : ∀ r, ¬s.signUsed r = true) : frameEvent s = { s with
    link := { s.link with firstFrame := false, frame := none, line := [], windowOpen := false } } := by
  unfold frameEvent
  simp only [poll]
  exact if_pos (usedSigns_isEmpty h)

theorem frameEvent_used (poll : s.link.poll = none) (h : s.signUsed r = true) :
    frameEvent s = beginFrame (if s.link.firstFrame then 0 else nextAddress s) s.firstTaken := by
  unfold frameEvent
  simp only [poll]
  exact if_neg (usedSigns_not_isEmpty h)

theorem frameEvent_first (poll : s.link.poll = none) (h : s.signUsed r = true) (first : s.link.firstFrame = true) :
    frameEvent s = beginFrame 0 s.firstTaken := by rw [frameEvent_used poll h, if_pos first]

theorem frameEvent_later (poll : s.link.poll = none) (h : s.signUsed r = true) (later : s.link.firstFrame = false) :
    frameEvent s = beginFrame (nextAddress s) s.firstTaken := by rw [frameEvent_used poll h, later, if_neg Bool.false_ne_true]

end

/-- The state as a frame event begins: the sign link's part of the decisecond event is taken. -/
def frameTaken (s : State) : State := { s with parts := { s.parts with signs := false } }

theorem exec_frameEvent {s : State} (h : s.parts.signs = true) : exec .frameEvent s = .next (frameEvent (frameTaken s)) :=
  congrArg Host.Outcome.next (if_pos h)

/-- Settles O32: the frame's COUNT is the largest end of a used span, and its POLL the least used address above the cursor or, where none is,
the least of all. -/
theorem frameEventBeginsTheFrame : Obligations.FrameEventBeginsTheFrame := by
  intro s due poll used address
  rw [exec_frameEvent due]
  have idle : (frameTaken s).link.poll = none := poll
  have used_iff : ∀ q, (frameTaken s).signUsed q = true ↔ used q := fun _ => signUsed_iff
  refine ⟨fun unused => congrArg Host.Outcome.next (frameEvent_unused idle fun r hr => unused r ((used_iff r).1 hr)), ?_⟩
  rintro n ⟨r, hr⟩ upper ⟨top, htop, hn⟩
  have count : frameCount (frameTaken s).firstTaken = n :=
    frameCount_eq (fun q hq => upper q ((used_iff q).1 hq)) ⟨top, (used_iff top).2 htop, hn⟩
  subst count
  refine ⟨fun first => ?first, fun r later hr holder next => ?later⟩
  case first =>
    exact congrArg Host.Outcome.next ((frameEvent_first idle ((used_iff r).2 hr) first).trans
      (beginFrame_zero (s := (frameTaken s).firstTaken) idle))
  case later =>
    have used_r := (used_iff r).2 hr
    have polled : nextAddress (frameTaken s) = (s.signRecord r).address.toNat :=
      nextAddress_eq used_r (by simp only [used_iff]; exact next)
    refine congrArg Host.Outcome.next ((frameEvent_later idle used_r later).trans ?_)
    rw [polled]
    exact beginFrame_address (s := (frameTaken s).firstTaken) used_r fun q hq hu => holder q hq ((used_iff q).1 hu)

end Sys2Proof.Machine

/-! PROOFS. The outcomes of a poll (R139 to R142, R145): the good reply and the miss. -/

namespace Sys2Proof.Machine

open Sys2Proof

/-! ### Outcomes -/

section

variable {s : State} {p : Poll}

/-- A poll's outcome counts where its record holds the polled address and no commit has changed it (R139, R145). -/
theorem pollStands_iff : pollStands s p = true ↔ p.discarded = false ∧ s.store.nv.valid = true ∧
    (s.active.signs.get p.record).used = true ∧ (s.active.signs.get p.record).address = p.address := by
  simp only [pollStands, Bool.and_eq_true, Bool.not_eq_true', decide_eq_true_eq, signUsed_iff, and_assoc]
  rfl

theorem setSign_get (s : State) (r : SignNo) : s.setSign r (s.link.signs.get r) = s := by
  rw [State.setSign, vector_get, Vector.set_getElem_self]

theorem setSign_setSign (s : State) (r : SignNo) (x y : Sign) : (s.setSign r x).setSign r y = s.setSign r y := by
  simp only [State.setSign, Vector.set_set]

/-- What a sign's change to LIVE leaves in the queue (R140). -/
def liveQueue (p : Poll) (s : State) : Queue :=
  if (s.link.signs.get p.record).state = .live then s.queue
  else s.queue.submit .signLive (lowWord s.clock) (subjectOf p.record.val) (p.address.setWidth 16)

theorem signLives_eq (p : Poll) (s : State) : signLives p s =
    { s.setSign p.record ⟨.live, 0, (s.link.signs.get p.record).status⟩ with queue := liveQueue p s } := by
  unfold signLives liveQueue
  dsimp only
  split <;> rfl

theorem takeStatus_eq (p : Poll) (flags : SignStatus) (s : State) : takeStatus p flags s =
    { s.setSign p.record { s.link.signs.get p.record with status := flags } with
      queue := if (s.link.signs.get p.record).status = flags then s.queue
        else s.queue.submit .signStatus (lowWord s.clock) (subjectOf p.record.val)
          (signStatusDetail flags (s.link.signs.get p.record).status) } := by
  unfold takeStatus
  dsimp only
  split
  case isTrue same => subst same; exact (setSign_get s p.record).symm
  case isFalse => rfl

/-- A good reply that counts: LIVE, the miss run 0 and the status flags taken, with SIGN_LIVE before SIGN_STATUS (R140, R142). -/
theorem goodOutcome_stands (stands : pollStands s p = true) (status : Byte) : goodOutcome p status s = { s with
    link := { s.link with signs := s.link.signs.set p.record ⟨.live, 0, statusOf status⟩, poll := none, windowOpen := false }
    queue := if (s.link.signs.get p.record).status = statusOf status then liveQueue p s
      else (liveQueue p s).submit .signStatus (lowWord s.clock) (subjectOf p.record.val)
        (signStatusDetail (statusOf status) (s.link.signs.get p.record).status) } := by
  have lived : (signLives p s).link.signs.get p.record = ⟨.live, 0, (s.link.signs.get p.record).status⟩ := by
    rw [signLives_eq]; exact State.setSign_self s _ _
  rw [goodOutcome, if_pos stands, takeStatus_eq, lived, signLives_eq]
  simp only [endPoll, State.setSign, Vector.set_set]

/-- The outcome of a poll whose record has changed is discarded (R139, R145). -/
theorem goodOutcome_discarded (h : ¬pollStands s p = true) (status : Byte) : goodOutcome p status s = endPoll s := if_neg h

theorem missOutcome_discarded (h : ¬pollStands s p = true) : missOutcome p s = endPoll s := if_neg h

theorem goesSilent_iff {x : Sign} : goesSilent x = true ↔ x.state ≠ .silent ∧ 3 ≤ min (x.missRun + 1) 255 := by
  simp only [goesSilent, Bool.and_eq_true, decide_eq_true_eq]; rfl

/-- A miss short of the third, or of a sign already SILENT, advances the miss run alone (R141). -/
theorem missOutcome_counts (stands : pollStands s p = true) (h : ¬goesSilent (s.link.signs.get p.record) = true) :
    missOutcome p s = endPoll (s.setSign p.record
      { s.link.signs.get p.record with missRun := min ((s.link.signs.get p.record).missRun + 1) 255 }) := by
  rw [missOutcome, if_pos stands]
  exact if_neg h

/-- The third miss takes the sign to SILENT, with SIGN_SILENT (R141). -/
theorem missOutcome_silences (stands : pollStands s p = true) (h : goesSilent (s.link.signs.get p.record) = true) :
    missOutcome p s = submitSign .signSilent p.record (p.address.setWidth 16) (endPoll (s.setSign p.record
      { s.link.signs.get p.record with state := .silent, missRun := min ((s.link.signs.get p.record).missRun + 1) 255 })) := by
  rw [missOutcome, if_pos stands]
  exact if_pos h

theorem closeWindow_open (poll : s.link.poll = some p) (window : s.link.windowOpen = true) : closeWindow s = missOutcome p s := by
  simp only [closeWindow, poll, window, if_true]

theorem silencing_open (poll : s.link.poll = some p) (window : s.link.windowOpen = true) (stands : pollStands s p = true)
    (h : goesSilent (s.link.signs.get p.record) = true) : silencing s = true := by
  simp only [silencing, poll, window, stands, h, Bool.and_self]

end

/-- Settles O36: the close of an open window is the poll's miss. -/
theorem missesMakeTheSignSilent : Obligations.MissesMakeTheSignSilent := by
  intro s p poll window stands x n
  have miss : exec .replyMiss s = .next (missOutcome p s) := congrArg Host.Outcome.next (closeWindow_open poll window)
  refine ⟨fun gone => ?discarded, fun counts short => ?counts, fun counts heard third => ?silences⟩
  case discarded => rw [miss, missOutcome_discarded (mt pollStands_iff.1 gone)]; rfl
  case counts =>
    have stays : ¬goesSilent x = true := fun h => by
      obtain ⟨heard, third⟩ := goesSilent_iff.1 h
      exact short.elim heard (Nat.not_lt.2 third)
    rw [miss, missOutcome_counts (pollStands_iff.2 counts) stays]
    rfl
  case silences =>
    have silent : goesSilent x = true := goesSilent_iff.2 ⟨heard, third⟩
    refine ⟨congrArg Host.Outcome.next (if_pos (silencing_open poll window (pollStands_iff.2 counts) silent)), ?_⟩
    rw [miss, missOutcome_silences (pollStands_iff.2 counts) silent]
    rfl

/-! ### The judgement of a reply -/

theorem not_byteError_iff {b : ReceivedByte} : (!byteError b) = true ↔ b.parity = parityBit b.data ∧ b.stop = true := by
  simp [byteError]

/-- Six bytes with the right LEAD, ADDR, SEQ and CHECK, whatever their STATUS (R139). -/
theorem replyData_iff {data : List Byte} (six : data.length = 6) (a q : Byte) :
    (data.getD 0 0 = 0x3C ∧ data.getD 1 0 = a ∧ data.getD 2 0 = q ∧
      data.getD 4 0 ++ data.getD 5 0 = crc [data.getD 1 0, data.getD 2 0, data.getD 3 0]) ↔
    ∃ status c1 c0 : Byte, data = [0x3C, a, q, status, c1, c0] ∧ c1 ++ c0 = crc [a, q, status] := by
  match data, six with
  | [lead, addr, seq, status, c1, c0], _ =>
    constructor
    · rintro ⟨rfl, rfl, rfl, check⟩
      exact ⟨status, c1, c0, rfl, check⟩
    · rintro ⟨_, _, _, e, check⟩
      cases e
      exact ⟨rfl, rfl, rfl, check⟩

/-- A reply is good exactly as R139 says. -/
theorem replyGood_iff (p : Poll) (r : Reply) : replyGood p r = true ↔
    r.firstStart ≤ 3000 ∧ r.sixthEnd < 6000 ∧ 6 ≤ r.bytes.length ∧
      (∀ b ∈ r.bytes.take 6, b.parity = parityBit b.data ∧ b.stop = true) ∧
      ∃ status c1 c0 : Byte, (r.bytes.take 6).map (·.data) = [0x3C, p.address, p.seq, status, c1, c0] ∧
        c1 ++ c0 = crc [p.address, p.seq, status] := by
  have complete : (r.bytes.take 6).length = 6 ↔ 6 ≤ r.bytes.length := by rw [List.length_take]; omega
  simp only [replyGood, Bool.and_eq_true, decide_eq_true_eq, List.all_eq_true, not_byteError_iff, and_assoc]
  refine and_congr_right fun _ => and_congr_right fun _ => (and_congr_right fun six => ?_).trans (and_congr_left fun _ => complete)
  exact and_congr_right fun _ => replyData_iff (by rw [List.length_map, six]) p.address p.seq

section

variable {s : State} {p : Poll} {r : Reply}

theorem goodReply_good (poll : s.link.poll = some p) (window : s.link.windowOpen = true) (good : replyGood p r = true) :
    goodReply r s = goodOutcome p (replyStatus r) s := by
  simp only [goodReply, poll, window, good, Bool.and_self, if_true]

/-- A reply that is not good leaves the window open (R139). -/
theorem goodReply_other (poll : s.link.poll = some p) (h : ¬replyGood p r = true) : goodReply r s = s := by
  simp [goodReply, poll, h]

end

/-- Settles O35: a reply is judged by R139, and a good one ends the poll with its outcome. -/
theorem goodReplyMakesTheSignLive : Obligations.GoodReplyMakesTheSignLive := by
  intro s p r poll window data good status flags stands x live
  have taken : good → exec (.goodReply r) s = .next (goodOutcome p (replyStatus r) s) := fun h =>
    congrArg Host.Outcome.next (goodReply_good poll window ((replyGood_iff p r).2 h))
  refine ⟨fun other => ?other, fun h gone => ?discarded, fun h counts => ?stands⟩
  case other => exact congrArg Host.Outcome.next (goodReply_other poll (mt (replyGood_iff p r).1 other))
  case discarded => rw [taken h, goodOutcome_discarded (mt pollStands_iff.1 gone)]; rfl
  case stands => exact (taken h).trans (congrArg Host.Outcome.next (goodOutcome_stands (pollStands_iff.2 counts) _))

end Sys2Proof.Machine

/-! PROOFS. The statements of the take (R150, R151), of the enable of reader B (R152, R153) and of the time mark (R156). -/

namespace Sys2Proof.Machine

open Sys2Proof

/-! ### Accesses part-way through a moment -/

/-- An access with submissions to follow it makes of them what it makes of the state without them, and then those (R148, R151 to R153). -/
theorem partWay_followed {u t : State} {access : State → State} (hh : u.held = false) (hq : QueueInv u.queue)
    (ha : u.queue.accessed = false) (h : (.next (partWay 0 access u) : Host.Outcome State Fault Refusal) = .next t) (rs : List Record) :
    (.next (partWay rs.length access { u with queue := rs.foldl Queue.store u.queue }) : Host.Outcome State Fault Refusal) =
      .next { t with queue := rs.foldl Queue.store t.queue } := by
  obtain rfl : access u = t := (partWay_zero access u).symm.trans (Host.Outcome.next.inj h)
  rw [partWay_stores hh hq ha]

/-! ### Takes -/

/-- A view past every held record, and B's while it is disabled, is empty (R149, R150). -/
theorem Queue.view_eq_nil {q : Queue} {reader : Reader} (h : q.held.length ≤ q.takenBy reader ∨ ¬q.serves reader) :
    q.view reader = [] := by
  by_cases hs : q.serves reader
  · rw [Queue.view_of_serves hs, List.drop_eq_nil_iff]
    exact h.resolve_right fun hn => hn hs
  · cases reader with
    | a => exact absurd (.inl rfl) hs
    | b => exact if_neg fun hb => hs (.inr hb)

/-- An empty view gives nothing to take (R150). -/
theorem Queue.take_empty {q : Queue} {reader : Reader} (h : q.view reader = []) : q.take reader = q := by
  cases reader <;> exact if_pos (List.isEmpty_iff.2 h)

/-- A reader with a view and a record it has not taken has a head record to take. -/
theorem Queue.view_not_isEmpty {q : Queue} {reader : Reader} (hs : q.serves reader) (h : q.takenBy reader < q.held.length) :
    ¬(q.view reader).isEmpty = true := by
  rw [Queue.view_of_serves hs, List.isEmpty_iff, List.drop_eq_nil_iff]
  exact Nat.not_le.2 h

section

variable {q : Queue}

/-- A's head leaves the queue when B is disabled or has taken it (R151). -/
theorem Queue.takeA_removes (h : q.takenA < q.held.length) (hout : q.enabledB = false ∨ q.takenA < q.takenB) : q.takeA = { q with
    held := q.held.take q.takenA ++ q.held.drop (q.takenA + 1), takenB := q.takenB - 1, fresh := 0, dropped := [] } := by
  have hview := Queue.view_not_isEmpty (reader := .a) (.inl rfl) h
  rw [← List.eraseIdx_eq_take_drop_succ]
  exact (if_neg hview).trans (if_pos hout)

/-- A's head stays held for B, which has not taken it (R151). -/
theorem Queue.takeA_holds (h : q.takenA < q.held.length) (hb : q.enabledB = true) (hout : q.takenB ≤ q.takenA) :
    q.takeA = { q with takenA := q.takenA + 1, fresh := 0, dropped := [] } := by
  have hview := Queue.view_not_isEmpty (reader := .a) (.inl rfl) h
  exact (if_neg hview).trans (if_neg (by simp [hb, hout]))

/-- B's head leaves the queue when A has taken it (R151). -/
theorem Queue.takeB_removes (h : q.takenB < q.held.length) (hb : q.enabledB = true) (hout : q.takenB < q.takenA) : q.takeB = { q with
    held := q.held.take q.takenB ++ q.held.drop (q.takenB + 1), takenA := q.takenA - 1, fresh := 0, dropped := [] } := by
  have hview := Queue.view_not_isEmpty (reader := .b) (.inr hb) h
  rw [← List.eraseIdx_eq_take_drop_succ]
  exact (if_neg hview).trans (if_pos hout)

/-- B's head stays held for A, which has not taken it (R151). -/
theorem Queue.takeB_holds (h : q.takenB < q.held.length) (hb : q.enabledB = true) (hout : q.takenA ≤ q.takenB) :
    q.takeB = { q with takenB := q.takenB + 1, fresh := 0, dropped := [] } := by
  have hview := Queue.view_not_isEmpty (reader := .b) (.inr hb) h
  exact (if_neg hview).trans (if_neg (Nat.not_lt.2 hout))

end

/-- TAKE is a read of the reader's last port word (R150, R151). -/
theorem exec_take {s : State} {later : Nat} (hheld : s.held = false)
    (hlater : later = 0 ∨ s.queue.moment = [] ∨ s.queue.accessed = true) (reader : Reader) (e : ByteEnables) (level : Level)
    (memory : Word) : exec (.take ⟨reader, later⟩ e level memory) s =
      .next (servedRead (portPage reader) 3 level (beginAccess s)) := by
  have hpage : servedPage (portPage reader) = true := by cases reader <;> rfl
  refine congrArg Host.Outcome.next ((partWay_last hlater _).trans ?_)
  exact busRead_served hheld hpage 3 e level memory

/-- At its level the last port word answers the head's detail and takes the record (R74, R150). -/
theorem servedRead_lastPortWord {s : State} {reader : Reader} {level : Level}
    (hl : level.toNat ≤ (requiredLevel s.tap.levelMap (readArea (portPage reader))).toNat) :
    servedRead (portPage reader) 3 level s = { s with
      queue := s.queue.take reader, bus := ⟨some (portWord s.queue reader 3), none⟩ } := by
  have hc : wordClass (portPage reader) 3 ≠ .unassigned := by cases reader <;> decide
  have hp : levelPasses level (requiredLevel s.tap.levelMap (readArea (portPage reader))) ≠ false := by
    rw [levelPasses_eq, decide_eq_true hl]; decide
  rw [servedRead, if_neg hc, if_neg hp]
  cases reader <;> rfl

/-- Settles O40: the level check, then the head record of the reader's view, with the other reader past it or not. -/
theorem takeRemovesWhatBothReadersTook : Obligations.TakeRemovesWhatBothReadersTook := by
  refine ⟨fun s reader later e level memory hheld hlater => ?_,
    fun u t rs reader e level memory hheld hq hfree h => partWay_followed hheld hq hfree h rs⟩
  intro q required mine other reads
  have hexec := exec_take hheld hlater reader e level memory
  have harea : requiredLevel s.tap.levelMap (readArea (portPage reader)) = required := by cases reader <;> rfl
  have hmine : q.takenBy reader = mine := by cases reader <;> rfl
  have passed : level.toNat ≤ required.toNat → reads (portWord q reader 3) (q.take reader) := fun hl =>
    hexec.trans (congrArg Host.Outcome.next (servedRead_lastPortWord (s := beginAccess s) (harea ▸ hl)))
  refine ⟨fun h => ?_, fun r hl hs hr => ?_⟩
  · by_cases hl : level.toNat ≤ required.toNat
    · have hempty : q.held.length ≤ q.takenBy reader ∨ ¬q.serves reader :=
        (h.resolve_left (Nat.not_lt.2 hl)).imp (hmine ▸ ·) fun ⟨hb, hd⟩ => by simp [Queue.serves, hb, hd]
      have hread := passed hl
      rwa [portWord_empty hempty, Queue.take_empty (Queue.view_eq_nil hempty)] at hread
    · exact hexec.trans (congrArg Host.Outcome.next (servedRead_zero (s := beginAccess s) (.inr (harea ▸ hl))))
  · have hread := passed hl
    rw [portWord_head hs (hmine ▸ hr)] at hread
    have hlt : mine < q.held.length := (List.getElem?_eq_some_iff.1 hr).1
    cases reader with
    | a => exact ⟨fun hout => Queue.takeA_removes hlt hout ▸ hread, fun hb hout => Queue.takeA_holds hlt hb hout ▸ hread⟩
    | b =>
      have hb : q.enabledB = true := hs.resolve_left (by decide)
      refine ⟨fun hout => Queue.takeB_removes hlt hb (hout.resolve_left (by simp [hb])) ▸ hread,
        fun _ hout => Queue.takeB_holds hlt hb hout ▸ hread⟩

/-! ### The enable of reader B -/

/-- A write of the value held changes nothing (R152, R153). -/
theorem Queue.setEnableB_same {q : Queue} {b : Bool} (h : b = q.enabledB) : q.setEnableB b = q := if_pos h

/-- Enabling gives B an empty view past every held record (R152). -/
theorem Queue.setEnableB_enables {q : Queue} (h : q.enabledB = false) :
    q.setEnableB true = { q with enabledB := true, takenB := q.held.length, fresh := 0, dropped := [] } := by
  simp [Queue.setEnableB, h, Queue.settled]

/-- Disabling removes the records A has taken (R153). -/
theorem Queue.setEnableB_disables {q : Queue} (h : q.enabledB = true) : q.setEnableB false = { q with
    enabledB := false, held := q.held.drop q.takenA, takenA := 0, takenB := 0, fresh := 0, dropped := [] } := by
  simp [Queue.setEnableB, h, Queue.settled]

/-- The enable that a write of the control word leaves: its data's where the low byte is enabled (R81, R152). -/
def enableWritten (w : BusWrite) (q : Queue) : Bool := if w.enables.low then w.data.getLsbD 0 else q.enabledB

/-- A write of the control word that passes its checks (R152, R153). -/
theorem busWrite_control {s : State} {w : BusWrite} (h : Taken s (requiredLevel s.tap.levelMap .portA) w) :
    busWrite 4 8 w s = { s with
      queue := s.queue.atAccess.setEnableB (enableWritten w s.queue.atAccess), bus := ⟨none, none⟩ } :=
  busWrite_taken (s := s) rfl (.inl rfl) h

/-- A write of the control word that changes the enable of reader B is taken, and writes the enable it leaves (R77, R81, R152). -/
theorem busWrite_control_changes {s : State} {w : BusWrite} (hheld : s.held = false)
    (h : (busWrite 4 8 w s).queue.enabledB ≠ s.queue.enabledB) : Taken s (requiredLevel s.tap.levelMap .portA) w := by
  have hserved : busWrite 4 8 w s = servedWrite 4 8 w (beginAccess s) := busWrite_served hheld rfl 8 w
  have hany : w.enables.any = true := by
    by_contra hn
    rw [hserved, servedWrite_dropped (.inl (by simpa using hn))] at h
    exact h s.queue.atAccess_enabledB
  refine ⟨hheld, hany, Nat.not_lt.1 fun hl => h ?_⟩
  rw [hserved, servedWrite_level (s := beginAccess s) (page := 4) (offset := 8) hany (.inl rfl) hl]
  show (s.queue.atAccess.submit _ _ _ _).enabledB = _
  rw [Queue.submit_rest]
  exact s.queue.atAccess_enabledB

/-- Records taken after B is enabled are all that its view holds (R148, R152). -/
theorem Queue.stores_viewB {q : Queue} (hb : q.enabledB = true) (ht : q.takenB = q.held.length) (rs : List Record)
    (hroom : q.held.length + rs.length ≤ 128) : (rs.foldl Queue.store q).viewB.map Record.content = rs.map Record.content := by
  have hrest := Queue.stores_rest rs q
  have hview : (rs.foldl Queue.store q).viewB = (rs.foldl Queue.store q).held.drop q.held.length := by
    have hb' := (congrArg Queue.enabledB hrest).trans hb
    have ht' := (congrArg Queue.takenB hrest).trans ht
    rw [Queue.viewB, if_pos hb', ht']
  have hcontents : (rs.foldl Queue.store q).held.map Record.content = q.held.map Record.content ++ rs.map Record.content :=
    Queue.stores_contents rs q hroom
  rw [hview, List.map_drop, hcontents, List.drop_left' (by simp)]

/-- The write of ENABLE_READER_B has the enable set in its data (R81, R152). -/
theorem enableWritten_set (w : BusWrite) (q : Queue) :
    enableWritten { w with data := w.data ||| 1 } q = if w.enables.low then true else q.enabledB := by
  simp [enableWritten]

/-- The write of DISABLE_READER_B has the enable clear in its data (R81, R153). -/
theorem enableWritten_clear (w : BusWrite) (q : Queue) :
    enableWritten { w with data := w.data &&& 0xFFFE } q = if w.enables.low then false else q.enabledB := by
  simp [enableWritten]

/-- A reader B enabled part-way has in its view the records of the moment that follow, and no held record changes (R148, R152). -/
theorem enabled_partWay_views {u t : State} {w : BusWrite} {rs : List Record} (hheld : u.held = false) (ht : t = busWrite 4 8 w u)
    (hoff : u.queue.enabledB = false) (hon : t.queue.enabledB = true) (hroom : u.queue.held.length + rs.length ≤ 128) :
    (rs.foldl Queue.store t.queue).viewB.map Record.content = rs.map Record.content ∧
    (rs.foldl Queue.store t.queue).contents = (rs.foldl Queue.store u.queue).contents := by
  subst ht
  have htaken := busWrite_control_changes hheld (w := w) (by simp [hon, hoff])
  have hoff' : u.queue.atAccess.enabledB = false := by simpa using hoff
  have hqueue : (busWrite 4 8 w u).queue =
      { u.queue.atAccess with enabledB := true, takenB := u.queue.atAccess.held.length, fresh := 0, dropped := [] } := by
    rw [busWrite_control htaken] at hon ⊢
    dsimp only at hon ⊢
    rcases hw : enableWritten w u.queue.atAccess with _ | _
    · rw [hw, Queue.setEnableB_same hoff'.symm, hoff'] at hon
      cases hon
    · exact Queue.setEnableB_enables hoff'
  have hheld' : (busWrite 4 8 w u).queue.held = u.queue.held := by rw [hqueue]; exact u.queue.atAccess_held
  have hroom' : (busWrite 4 8 w u).queue.held.length + rs.length ≤ 128 := by rwa [hheld']
  refine ⟨Queue.stores_viewB hon (by rw [hqueue]) rs hroom', ?_⟩
  rw [Queue.stores_contents rs _ hroom', Queue.stores_contents rs _ hroom, Queue.contents, Queue.contents, hheld']

/-- Settles O41: the write sets the enable to what it leaves of it, and one that changes the enable is a taken write. -/
theorem readerBIsEnabledAndDisabled : Obligations.ReaderBIsEnabledAndDisabled := by
  refine ⟨fun s w later htaken hlater => ?_, fun u t rs w hheld hq hfree => ⟨fun h => ⟨partWay_followed hheld hq hfree h rs, ?_⟩,
    fun h => partWay_followed hheld hq hfree h rs⟩⟩
  · intro q gives
    have enable : ∀ {q'}, q.setEnableB (if w.enables.low then true else q.enabledB) = q' → gives (.enableReaderB ⟨w, later⟩) q' := by
      rintro _ rfl
      rw [← enableWritten_set]
      exact congrArg Host.Outcome.next ((partWay_last hlater _).trans (busWrite_control htaken))
    have disable : ∀ {q'}, q.setEnableB (if w.enables.low then false else q.enabledB) = q' → gives (.disableReaderB ⟨w, later⟩) q' := by
      rintro _ rfl
      rw [← enableWritten_clear]
      exact congrArg Host.Outcome.next ((partWay_last hlater _).trans (busWrite_control htaken))
    refine ⟨fun hlow hoff => enable ?_, fun hlow hon => disable ?_, fun h => enable ?_, fun h => disable ?_⟩
    · rw [if_pos hlow, Queue.setEnableB_enables hoff]
    · rw [if_pos hlow, Queue.setEnableB_disables hon]
    · exact Queue.setEnableB_same (by rcases h with h | h <;> simp [h])
    · exact Queue.setEnableB_same (by rcases h with h | h <;> simp [h])
  · have ht : partWay 0 _ u = t := Host.Outcome.next.inj h
    exact fun hoff hon hroom => enabled_partWay_views hheld (ht.symm.trans (partWay_zero _ u)) hoff hon hroom

/-! ### The time mark -/

section

variable {s : State}

/-- At a multiple of 600 of the clock the queue's part submits a mark (R156). -/
theorem markPart_minute (hdue : s.parts.mark = true) (h : s.clock.toNat % 600 = 0) :
    markPart s = submitTimeMark { s with parts := { s.parts with mark := false } } := by
  simp only [markPart, hdue, if_true, Config.minute, h]

/-- At any other value of the clock it is over with no mark (R156). -/
theorem markPart_between (hdue : s.parts.mark = true) (h : s.clock.toNat % 600 ≠ 0) :
    markPart s = { s with parts := { s.parts with mark := false } } := by
  simp only [markPart, hdue, if_true, Config.minute, h, if_false]

/-- A part that is not due is none (notes/assumptions/1.md). -/
theorem markPart_idle (h : s.parts.mark = false) : markPart s = s := if_neg (by simp [h])

end

/-- Settles O42: the mark is due or not, and the clock a multiple of 600 or not. -/
theorem timeMarkFallsOnceAMinute : Obligations.TimeMarkFallsOnceAMinute := fun _ =>
  ⟨fun hdue h => congrArg Host.Outcome.next (markPart_minute hdue h), fun hdue h => congrArg Host.Outcome.next (markPart_between hdue h),
    fun hdue => congrArg Host.Outcome.next (markPart_idle hdue)⟩

end Sys2Proof.Machine

/-! PROOFS. The words of the safety tables (R160, R163, R178; 11.10): where each stands, what a write to one leaves of it and of the others,
and the statement of the staging words. -/

namespace Sys2Proof.Machine

open Sys2Proof

/-! ### The layout of 11.10 -/

/-- The offset of a place in staging, as 11.10 lays the sections out one after another. -/
def StagingPlace.offset : StagingPlace → Nat
  | .conflictRow j second => 2 * j.val + second.toNat
  | .intergreenPair j even _ => 64 + 16 * j.val + even.val / 2
  | .groupWord g place => 576 + 3 * g.val + place
  | .holdMask line second => 672 + 2 * line.val + second.toNat
  | .signWord r place => 676 + 3 * r.val + place
  | .timingWord k => 724 + k
  | .levelMap => 731
  | .unassigned => 732

/-- The place is one that 11.10 lays out: an even column with the next, one of a record's three words, one of the seven timing words. -/
def StagingPlace.LaidOut : StagingPlace → Prop
  | .intergreenPair _ even odd => even.val % 2 = 0 ∧ odd.val = even.val + 1
  | .groupWord _ place => place < 3
  | .signWord _ place => place < 3
  | .timingWord k => k < 7
  | _ => True

/-- The bits of the word at a place that hold a field (11.10). -/
def StagingPlace.fieldMask : StagingPlace → Word
  | .groupWord _ place => if place = 0 then 0xFF3F else 0xFFFF
  | .signWord _ place => if place = 2 then 0x03FF else 0xFFFF
  | .levelMap => 0x3FFF
  | .unassigned => 0
  | _ => 0xFFFF

theorem decide_odd_toNat (k : Nat) : (decide (k % 2 = 1)).toNat = k % 2 := by
  rcases Nat.mod_two_eq_zero_or_one k with h | h <;> simp [h]

/-- A staging offset is that of its place. -/
theorem offset_stagingPlace {k : Nat} (hk : k < 732) : (stagingPlace k).offset = k := by
  unfold stagingPlace
  split_ifs <;> simp only [StagingPlace.offset, groupNo, lineNo, signNo, decide_odd_toNat] <;> omega

/-- Every staging offset has a place of the layout. -/
theorem laidOut_stagingPlace (k : Nat) : (stagingPlace k).LaidOut := by
  unfold stagingPlace
  split_ifs <;> simp only [StagingPlace.LaidOut, groupNo] <;> omega

/-- The bits that hold a field, by the offset (11.10). -/
theorem fieldMask_stagingPlace {k : Nat} (hk : k < 732) : (stagingPlace k).fieldMask =
    if k < 576 then 0xFFFF
    else if k < 672 then (if (k - 576) % 3 = 0 then 0xFF3F else 0xFFFF)
    else if k < 676 then 0xFFFF
    else if k < 724 then (if (k - 676) % 3 = 2 then 0x03FF else 0xFFFF)
    else if k < 731 then 0xFFFF
    else 0x3FFF := by
  unfold stagingPlace
  split_ifs <;> grind [StagingPlace.fieldMask]

/-! ### Words of bytes, masks and records -/

/-- A word is made of its two bytes. -/
theorem wordOf_lowByte_highByte (w : Word) : wordOf (lowByte w).toNat (highByte w).toNat = w := by
  apply BitVec.eq_of_toNat_eq
  simp only [wordOf, lowByte, highByte, BitVec.extractLsb'_toNat, BitVec.toNat_ofNat, Nat.shiftRight_eq_div_pow]
  omega

/-- The mask of all bits takes nothing from a word. -/
theorem and_allBits (w : Word) : w &&& 0xFFFF = w := BitVec.and_allOnes

theorem maskWord_setMaskWord_same (m : Mask) (second : Bool) (w : Word) : maskWord (setMaskWord m second w) second = w := by
  cases second
  · exact BitVec.extractLsb'_append_eq_right
  · exact BitVec.extractLsb'_append_eq_left

theorem maskWord_setMaskWord_ne (m : Mask) {a b : Bool} (h : b ≠ a) (w : Word) :
    maskWord (setMaskWord m a w) b = maskWord m b := by
  cases a <;> cases b
  · exact absurd rfl h
  · exact BitVec.extractLsb'_append_eq_left
  · exact BitVec.extractLsb'_append_eq_right
  · exact absurd rfl h

/-- A word under a mask, byte by byte. -/
theorem and_eq_append (w mask : Word) :
    w &&& mask = (highByte w &&& highByte mask) ++ (lowByte w &&& lowByte mask) := by
  rw [← BitVec.and_append, ← wordOf_bytes, ← wordOf_bytes, wordOf_lowByte_highByte, wordOf_lowByte_highByte]

/-- The low byte of a kind word keeps the bits of its three fields. -/
theorem kindByte_fields : ∀ b : Byte, BitVec.ofNat 8 ((b.extractLsb' 0 4).toNat + (if b.getLsbD 4 then 16 else 0) +
    (if b.getLsbD 5 then 32 else 0)) = b &&& 0x3F := by decide

/-- The high byte of a sign record's last word keeps the bits of its two flags. -/
theorem flagsByte_fields : ∀ b : Byte, BitVec.ofNat 8 ((if b.getLsbD 0 then 1 else 0) + (if b.getLsbD 1 then 2 else 0)) =
    b &&& 0x03 := by decide

/-- The kind word of a group record keeps the bits of its four fields. -/
theorem kindWord_fields (w : Word) :
    wordOf ((w.extractLsb' 0 4).toNat + (if w.getLsbD 4 then 16 else 0) + (if w.getLsbD 5 then 32 else 0)) (highByte w).toNat =
      w &&& 0xFF3F := by
  have hkind : w.extractLsb' 0 4 = (lowByte w).extractLsb' 0 4 := by
    apply BitVec.eq_of_toNat_eq; simp [lowByte]
  have hbit : ∀ i, i < 8 → w.getLsbD i = (lowByte w).getLsbD i := fun i hi => by simp [lowByte, hi]
  have hhigh : highByte w &&& highByte 0xFF3F = highByte w := BitVec.and_allOnes
  rw [wordOf_eq_append, hkind, hbit 4 (by omega), hbit 5 (by omega), kindByte_fields, and_eq_append, hhigh, BitVec.ofNat_toNat,
    BitVec.setWidth_eq]
  rfl

/-- The last word of a sign record keeps the bits of its three fields. -/
theorem safeWord_fields (w : Word) :
    wordOf (lowByte w).toNat ((if w.getLsbD 8 then 1 else 0) + (if w.getLsbD 9 then 2 else 0)) = w &&& 0x03FF := by
  have hbit : ∀ i, i < 8 → w.getLsbD (8 + i) = (highByte w).getLsbD i := fun i hi => by simp [highByte, hi]
  have hlow : lowByte w &&& lowByte 0x03FF = lowByte w := BitVec.and_allOnes
  rw [wordOf_eq_append, hbit 0 (by omega), hbit 1 (by omega), flagsByte_fields, and_eq_append, hlow, BitVec.ofNat_toNat,
    BitVec.setWidth_eq]
  rfl

theorem GroupRecord.word_setWord_same (r : GroupRecord) {place : Nat} (hp : place < 3) (w : Word) :
    (r.setWord place w).word place = w &&& (if place = 0 then 0xFF3F else 0xFFFF) := by
  have hcases : place = 0 ∨ place = 1 ∨ place = 2 := by omega
  rcases hcases with rfl | rfl | rfl
  · exact kindWord_fields w
  · exact (and_allBits w).symm
  · exact (wordOf_lowByte_highByte w).trans (and_allBits w).symm

theorem GroupRecord.word_setWord_ne (r : GroupRecord) {p q : Nat} (hp : p < 3) (hq : q < 3) (h : q ≠ p) (w : Word) :
    (r.setWord p w).word q = r.word q := by
  interval_cases p <;> grind [GroupRecord.setWord, GroupRecord.word]

theorem SignRecord.word_setWord_same (r : SignRecord) {place : Nat} (hp : place < 3) (w : Word) :
    (r.setWord place w).word place = w &&& (if place = 2 then 0x03FF else 0xFFFF) := by
  have hcases : place = 0 ∨ place = 1 ∨ place = 2 := by omega
  rcases hcases with rfl | rfl | rfl
  · exact (wordOf_lowByte_highByte w).trans (and_allBits w).symm
  · exact (wordOf_lowByte_highByte w).trans (and_allBits w).symm
  · exact safeWord_fields w

theorem SignRecord.word_setWord_ne (r : SignRecord) {p q : Nat} (hp : p < 3) (hq : q < 3) (h : q ≠ p) (w : Word) :
    (r.setWord p w).word q = r.word q := by
  interval_cases p <;> grind [SignRecord.setWord, SignRecord.word]

/-- The level map word keeps the bits of its seven levels (11.5). -/
theorem levelMap_fields (w : Word) : (w.setWidth 14).setWidth 16 = w &&& 0x3FFF := by
  apply BitVec.eq_of_getLsbD_eq
  intro i hi
  have hmask : (0x3FFF : Word).getLsbD i = decide (i < 14) := by revert i; decide
  rw [BitVec.getLsbD_and, hmask, BitVec.getLsbD_setWidth, BitVec.getLsbD_setWidth, decide_eq_true hi, Bool.true_and, Bool.and_comm]

theorem Timing.word_setWord_same (t : Timing) (k : Nat) (w : Word) : (t.setWord k w).word k = w := by
  unfold Timing.setWord
  split_ifs <;> simp [Timing.word, *]

theorem Timing.word_setWord_ne (t : Timing) {k n : Nat} (hk : k < 7) (hn : n < 7) (h : n ≠ k) (w : Word) :
    (t.setWord k w).word n = t.word n := by
  interval_cases k <;> grind [Timing.setWord, Timing.word]

/-! ### Sections -/

/-- A copied section reads as in the source, every other as before (R165). -/
theorem word_copySection (sec : Section) (src dst : Tables) (p : StagingPlace) :
    (copySection sec src dst).word p = if placeSection p = sec then src.word p else dst.word p := by
  cases sec <;> cases p <;> rfl

/-- A word written changes nothing outside its section. -/
theorem copySection_setWord (t : Tables) (p : StagingPlace) (w : Word) : copySection (placeSection p) t (t.setWord p w) = t := by
  cases p <;> rfl

theorem word_setWord_of_section_ne (t : Tables) {p q : StagingPlace} (h : placeSection q ≠ placeSection p) (w : Word) :
    (t.setWord p w).word q = t.word q :=
  calc (t.setWord p w).word q = (copySection (placeSection p) t (t.setWord p w)).word q := by rw [word_copySection, if_neg h]
    _ = t.word q := by rw [copySection_setWord]

/-! ### A word written -/

/-- The word written reads back with the bits that hold no field at 0 (R178). -/
theorem word_setWord_same (t : Tables) {p : StagingPlace} (hp : p.LaidOut) (w : Word) :
    (t.setWord p w).word p = w &&& p.fieldMask := by
  cases p with
  | conflictRow j second =>
    simp only [Tables.setWord, Tables.word, StagingPlace.fieldMask, and_allBits, vector_get_set_self, maskWord_setMaskWord_same]
  | intergreenPair j even odd =>
    have hne : even ≠ odd := Fin.ne_of_val_ne (by have := hp.2; omega)
    simp only [Tables.setWord, Tables.word, StagingPlace.fieldMask, and_allBits, vector_get_set_self, vector_get_set_ne _ _ hne,
      wordOf_lowByte_highByte]
  | groupWord g place =>
    simp only [Tables.setWord, Tables.word, vector_get_set_self]
    exact GroupRecord.word_setWord_same _ hp w
  | holdMask line second =>
    simp only [Tables.setWord, Tables.word, StagingPlace.fieldMask, and_allBits, vector_get_set_self, maskWord_setMaskWord_same]
  | signWord r place =>
    simp only [Tables.setWord, Tables.word, vector_get_set_self]
    exact SignRecord.word_setWord_same _ hp w
  | timingWord k => exact (Timing.word_setWord_same _ k w).trans (and_allBits w).symm
  | levelMap => exact levelMap_fields w
  | unassigned => exact BitVec.and_zero.symm

/-- A word of an entry, after a write that leaves the entry's other words, is as it was at every other entry and place. -/
theorem word_get_set_ne {α κ : Type} {n : Nat} (word : α → κ → Word) (v : Vector α n) {i j : Fin n} {x : α} {a b : κ}
    (hx : b ≠ a → word x b = word (v.get i) b) (h : j = i → b ≠ a) : word ((v.set i x).get j) b = word (v.get j) b := by
  by_cases hj : j = i
  · subst hj; rw [vector_get_set_self, hx (h rfl)]
  · rw [vector_get_set_ne _ _ hj]

/-- A pair of columns written leaves the other pairs of the row. -/
theorem pairWord_set_ne (row : Vector Byte 32) {even odd even' odd' : GroupNo} (hp : even.val % 2 = 0 ∧ odd.val = even.val + 1)
    (hq : even'.val % 2 = 0 ∧ odd'.val = even'.val + 1) (h : even' ≠ even) (x y : Byte) :
    wordOf ((((row.set even x).set odd y).get even').toNat) ((((row.set even x).set odd y).get odd').toNat) =
      wordOf (row.get even').toNat (row.get odd').toNat := by
  obtain ⟨heven, hodd⟩ := hp
  obtain ⟨heven', hodd'⟩ := hq
  have h1 : even' ≠ odd := Fin.ne_of_val_ne (by omega)
  have h2 : odd' ≠ even := Fin.ne_of_val_ne (by omega)
  have h3 : odd' ≠ odd := fun e => h (Fin.ext (by have := congrArg Fin.val e; omega))
  rw [vector_get_set_ne _ _ h1, vector_get_set_ne _ _ h, vector_get_set_ne _ _ h3, vector_get_set_ne _ _ h2]

/-- A word at another place of the layout is as it was. -/
theorem word_setWord_ne (t : Tables) {p q : StagingPlace} (hp : p.LaidOut) (hq : q.LaidOut) (h : q ≠ p) (w : Word) :
    (t.setWord p w).word q = t.word q := by
  by_cases hs : placeSection q = placeSection p
  · cases p with
    | conflictRow j second => cases q with
      | conflictRow j' second' =>
        exact word_get_set_ne maskWord _ (fun hne => maskWord_setMaskWord_ne _ hne w) fun hj e => h (by rw [hj, e])
      | _ => cases hs
    | intergreenPair j even odd => cases q with
      | intergreenPair j' even' odd' =>
        have hpair : j' = j → even' ≠ even := fun hj e => h (by subst hj e; rw [Fin.ext (hq.2.trans hp.2.symm)])
        exact word_get_set_ne (fun (row : Vector Byte 32) _ => wordOf (row.get even').toNat (row.get odd').toNat) _
          (fun hne => pairWord_set_ne _ hp hq hne _ _) hpair
      | _ => cases hs
    | groupWord g place => cases q with
      | groupWord g' place' =>
        exact word_get_set_ne GroupRecord.word _ (fun hne => GroupRecord.word_setWord_ne _ hp hq hne w) fun hg e => h (by rw [hg, e])
      | _ => cases hs
    | holdMask line second => cases q with
      | holdMask line' second' =>
        exact word_get_set_ne maskWord _ (fun hne => maskWord_setMaskWord_ne _ hne w) fun hl e => h (by rw [hl, e])
      | _ => cases hs
    | signWord r place => cases q with
      | signWord r' place' =>
        exact word_get_set_ne SignRecord.word _ (fun hne => SignRecord.word_setWord_ne _ hp hq hne w) fun hr e => h (by rw [hr, e])
      | _ => cases hs
    | timingWord k => cases q with
      | timingWord k' => exact Timing.word_setWord_ne _ hp hq (fun e => h (by rw [e])) w
      | _ => cases hs
    | levelMap => cases q with
      | levelMap => exact absurd rfl h
      | unassigned => rfl
      | _ => cases hs
    | unassigned => rfl
  · exact word_setWord_of_section_ne t hs w

/-- Settles O50: each offset has its own place of the layout. -/
theorem stagingWordsReadBack : Obligations.StagingWordsReadBack := by
  intro t k w hk
  refine ⟨?_, fun k' hk' hne => ?_⟩
  · rw [word_setWord_same t (laidOut_stagingPlace k), fieldMask_stagingPlace hk]
  · have hplace : stagingPlace k' ≠ stagingPlace k := fun e =>
      hne (by rw [← offset_stagingPlace hk', ← offset_stagingPlace hk, e])
    exact word_setWord_ne t (laidOut_stagingPlace k) (laidOut_stagingPlace k') hplace w

end Sys2Proof.Machine

/-! PROOFS. The statement of the lock word (R165, R166): the refusals in their order, the sections copied and the flags merged. -/

namespace Sys2Proof.Machine

open Sys2Proof

/-! ### The sections copied -/

theorem mem_allSections (sec : Section) : sec ∈ allSections := by cases sec <;> decide

/-- The sections of a list whose flags are set, copied one after another: their words are the source's, every other as before. -/
theorem word_foldl_copySection (flags : BitVec 7) (src : Tables) (p : StagingPlace) (l : List Section) (dst : Tables) :
    (l.foldl (fun t sec => if flags.getLsbD (sectionCode sec) then copySection sec src t else t) dst).word p =
      if placeSection p ∈ l ∧ flags.getLsbD (sectionCode (placeSection p)) = true then src.word p else dst.word p := by
  induction l generalizing dst with
  | nil => simp
  | cons sec l ih =>
    have hstep : (if flags.getLsbD (sectionCode sec) then copySection sec src dst else dst).word p =
        if placeSection p = sec ∧ flags.getLsbD (sectionCode (placeSection p)) = true then src.word p else dst.word p := by
      split_ifs with hf <;> grind [word_copySection]
    rw [List.foldl_cons, ih, hstep]
    grind

/-- A word after the copy is the source's where its section's flag is set (R165). -/
theorem word_copySections (flags : BitVec 7) (src dst : Tables) (p : StagingPlace) : (copySections flags src dst).word p =
    if flags.getLsbD (sectionCode (placeSection p)) = true then src.word p else dst.word p := by
  rw [copySections, word_foldl_copySection]
  simp only [mem_allSections, true_and]

/-- Every section has its lock flag (11.10). -/
theorem sectionCode_lt_seven (sec : Section) : sectionCode sec < 7 := by cases sec <;> decide

/-! ### The lock word -/

/-- A merged word combined by OR with the stored one: the bits that are not written fall together (R81, R165). -/
theorem getLsbD_or_mergeBytes (old : Word) (w : BusWrite) {k : Nat} (hk : k < 16) :
    (old.getLsbD k || (mergeBytes old w.data w.enables).getLsbD k) = (old.getLsbD k || (takenData w).getLsbD k) := by
  rw [takenData_getLsbD w hk, mergeBytes_getLsbD old w.data w.enables k hk]
  rcases (if k < 8 then w.enables.low else w.enables.high) with _ | _ <;> simp

section

variable (nv : NonVolatile) {k : Nat}

theorem lockWord_getLsbD_flag (hk : k < 7) : (lockWord nv).getLsbD k = nv.lockFlags.getLsbD k := by
  rw [lockWord, BitVec.getLsbD_or, bitWord_getLsbD _ (by omega), BitVec.getLsbD_setWidth]
  simp [show 15 ≠ k by omega, show k < 16 by omega]

theorem lockWord_getLsbD_freeze : (lockWord nv).getLsbD 15 = nv.freeze := by
  rw [lockWord, BitVec.getLsbD_or, bitWord_getLsbD _ (by omega), BitVec.getLsbD_setWidth, BitVec.getLsbD_of_ge _ 15 (by omega)]
  simp

/-- The lock flags after a lock write (R165). -/
def mergedFlags (w : BusWrite) : BitVec 7 := nv.lockFlags ||| (mergeBytes (lockWord nv) w.data w.enables).setWidth 7

/-- They are those that stood and those that the write sets. -/
theorem mergedFlags_getLsbD (w : BusWrite) (hk : k < 7) :
    (mergedFlags nv w).getLsbD k = (nv.lockFlags.getLsbD k || (takenData w).getLsbD k) := by
  rw [mergedFlags, BitVec.getLsbD_or, BitVec.getLsbD_setWidth, decide_eq_true hk, Bool.true_and, ← lockWord_getLsbD_flag nv hk,
    getLsbD_or_mergeBytes _ _ (by omega)]

/-- The freeze after a lock write with none standing: the one that it sets (R166). -/
theorem freeze_or_merged (w : BusWrite) (hf : nv.freeze = false) :
    (nv.freeze || (mergeBytes (lockWord nv) w.data w.enables).getLsbD 15) = (takenData w).getLsbD 15 := by
  rw [← lockWord_getLsbD_freeze, getLsbD_or_mergeBytes _ _ (by omega), lockWord_getLsbD_freeze, hf, Bool.false_or]

/-- The flags newly set (R165). -/
theorem newFlags_getLsbD_iff (w : BusWrite) (hk : k < 7) : (mergedFlags nv w &&& ~~~nv.lockFlags).getLsbD k = true ↔
    nv.lockFlags.getLsbD k = false ∧ (takenData w).getLsbD k = true := by
  rw [BitVec.getLsbD_and, mergedFlags_getLsbD nv w hk, BitVec.getLsbD_not, decide_eq_true hk, Bool.true_and]
  cases nv.lockFlags.getLsbD k <;> simp

end

/-! ### Lock writes -/

/-- A lock write refused by `reason` leaves the store as it was (R165). -/
theorem writeLock_refused {w : BusWrite} {s : State} {reason : Reason}
    (h : (s.mode.switch.level = false ∧ reason = .switchOpen) ∨
      (s.mode.switch.level = true ∧ s.store.nv.valid = false ∧ reason = .unconfigured) ∨
      (s.mode.switch.level = true ∧ s.store.nv.valid = true ∧ s.store.nv.freeze = true ∧ reason = .frozen) ∨
      (s.mode.switch.level = true ∧ s.store.nv.valid = true ∧ s.store.nv.freeze = false ∧ s.store.busy = true ∧ reason = .busy)) :
    writeLock w s = refuse reason s := by
  rcases h with ⟨hs, rfl⟩ | ⟨hs, hv, rfl⟩ | ⟨hs, hv, hf, rfl⟩ | ⟨hs, hv, hf, hb, rfl⟩
  · simp [writeLock, State.switchClosed, hs]
  · simp [writeLock, State.switchClosed, hs, hv]
  · simp [writeLock, State.switchClosed, hs, hv, hf]
  · simp [writeLock, State.switchClosed, hs, hv, hf, hb]

/-- A lock write past the four checks is applied (R165). -/
theorem writeLock_accepted {s : State} (hs : s.mode.switch.level = true) (hv : s.store.nv.valid = true)
    (hf : s.store.nv.freeze = false) (hb : s.store.busy = false) (w : BusWrite) : writeLock w s = accept (applyLock w s) := by
  simp [writeLock, State.switchClosed, hs, hv, hf, hb]

/-- An accepted lock write leaves the merged flags, the freeze it sets, and staging with the newly locked sections copied (R165, R166). -/
theorem applyLock_eq {s : State} (hf : s.store.nv.freeze = false) (w : BusWrite) : applyLock w s = { s with store := { s.store with
    nv := { s.store.nv with lockFlags := mergedFlags s.store.nv w, freeze := (takenData w).getLsbD 15 }
    staging := copySections (mergedFlags s.store.nv w &&& ~~~s.store.nv.lockFlags) s.active s.store.staging } } := by
  rw [← freeze_or_merged s.store.nv w hf]; rfl

/-- Settles O51: the refusals in their order, then the flags, the copied sections and the freeze of the accepted write. -/
theorem lockWritesAreDecidedInOrder : Obligations.LockWritesAreDecidedInOrder := by
  intro s c w hc h nv refused sets
  have hexec : exec c s = .next (settle 12 1 w.level (writeLock w (beginAccess s))) := by
    have hbus : exec c s = .next (busWrite 12 1 w s) := by
      rcases hc with rfl | ⟨u, rfl, rfl⟩ <;> rfl
    rw [hbus, busWrite_taken rfl (.inl rfl) h]
    rfl
  have hrefused : ∀ reason, writeLock w (beginAccess s) = refuse reason (beginAccess s) → refused reason := by
    intro reason hr
    show exec c s = _
    rw [hexec, hr, settle_refuse, h.level_eq_zero]; rfl
  refine ⟨fun hs => ?_, fun hs hv => ?_, fun hs hv hf => ?_, fun hs hv hf hb => ?_, fun hs hv hf hb => ?_⟩
  · exact hrefused _ (writeLock_refused (.inl ⟨hs, rfl⟩))
  · exact hrefused _ (writeLock_refused (.inr (.inl ⟨hs, hv, rfl⟩)))
  · exact hrefused _ (writeLock_refused (.inr (.inr (.inl ⟨hs, hv, hf, rfl⟩))))
  · exact hrefused _ (writeLock_refused (.inr (.inr (.inr ⟨hs, hv, hf, hb, rfl⟩))))
  · have hsets : ∀ k, k < 16 → (takenData w).getLsbD k = sets k := fun k hk => takenData_getLsbD w hk
    refine ⟨mergedFlags nv w, copySections (mergedFlags nv w &&& ~~~nv.lockFlags) s.active s.store.staging, ?_, fun k hk => ?_, ?_⟩
    · rw [hexec, writeLock_accepted (s := beginAccess s) hs hv hf hb, settle_accept, applyLock_eq (s := beginAccess s) hf,
        hsets 15 (by omega)]
      rfl
    · rw [mergedFlags_getLsbD nv w hk, hsets k (by omega)]
    · intro k _ sec
      have hsec : sec < 7 := sectionCode_lt_seven _
      rw [← hsets sec (by omega)]
      simp only [word_copySections, newFlags_getLsbD_iff nv w hsec, sec]

end Sys2Proof.Machine

/-! PROOFS. The step: what it runs, and that every command completes and leaves the waiting commands as they were, a reset among them
(notes/assumptions/6.md, 7.md, 18.md). -/

namespace Sys2Proof.Machine

open Sys2Proof

/-! ### What a step runs -/

/-- The end of a moment: no submission is of it any more, and no access and no sample is noted. -/
theorem Queue.endMoment_eq (q : Queue) : q.endMoment = { q with fresh := 0, dropped := [], accessed := false, sampled := false } := rfl

theorem step_of_cons {s : State} {c : Instr} {rest : List Instr} (h : s.pending = c :: rest) :
    step s = exec c { s with pending := rest } := by
  unfold step; rw [h]

theorem step_of_nil {s : State} (h : s.pending = []) : step s = .next { s with queue := s.queue.endMoment } := by
  unfold step; rw [h]

/-- Settles O1: by whether a command waits. -/
theorem stepTakesTheFrontCommand : Obligations.StepTakesTheFrontCommand := by
  unfold Obligations.StepTakesTheFrontCommand
  refine ⟨fun c rest s h => step_of_cons h, fun s h => ?_⟩
  rw [step_of_nil h, Queue.endMoment_eq]

/-! ### The waiting commands over a reset -/

@[simp] theorem assertReset_pending (kind : ResetKind) (s : State) : (assertReset kind s).pending = s.pending := rfl

@[simp] theorem leaveReset_pending (straps : BitVec 4) (nv : NonVolatile) (s : State) : (leaveReset straps nv s).pending = s.pending := rfl

/-- A reset keeps the waiting commands, and so does the access it finds in progress. -/
theorem beginReset_pending (r : ResetAssertion) (s : State) : (beginReset r s).pending = s.pending := by
  obtain ⟨kind, _ | p⟩ := r
  · rw [beginReset_none, assertReset_pending]
  · rw [beginReset_some]
    exact (assertReset_pending kind _).trans (accessDone_keeps (A := True) p s).pending

theorem endReset_pending (kind : ResetKind) (straps : BitVec 4) (closed : Bool) (s : State) :
    (endReset kind straps closed s).pending = s.pending := by
  rcases endReset_cases kind straps closed s with h | ⟨a, b, h⟩ | h
  · rw [h]
  · rw [h]; rfl
  · rw [h, leaveReset_pending]

/-! ### Every command -/

/-- Settles O2: a reset by what it sets back, every other command by what its operations keep. -/
theorem everyCommandCompletesAndKeepsTheQueue : Obligations.EveryCommandCompletesAndKeepsTheQueue := by
  unfold Obligations.EveryCommandCompletesAndKeepsTheQueue
  intro c s
  rcases hc : isReset c with _ | _
  · obtain ⟨t, ht, kept⟩ := exec_keeps hc s
    exact ⟨t, ht, kept.pending⟩
  · cases c
    case resetAsserted r => exact ⟨beginReset r s, rfl, beginReset_pending r s⟩
    case powerLoss => exact ⟨assertReset .powerOn s, rfl, assertReset_pending .powerOn s⟩
    case resetEnd kind straps closed => exact ⟨endReset kind straps closed s, rfl, endReset_pending kind straps closed s⟩
    all_goals cases hc

end Sys2Proof.Machine
